-- ==== Sys2Proof/Config.lean ====
section
/-! DEFINITION. What is fixed for a given block and is the same before and after every step (spec/10_state.md R45): the
constants of spec/00_scope.md R7, the identification value R31, and the open parameters `W` (R6) and `LNB` (R8). The prime
ROM is in Sys2Proof/Machine/Rom.lean. -/

namespace Sys2Proof.Config

/-- `NW` of the instance `State.reset` describes: `W = 64`, the width of every vector of spec/95_test_vectors.md.
DESIGN CHOICE (log 1), unsafe: R6 leaves `W` open in `64 .. 4096`. Only `State.reset` uses it; `State.nw` holds the `NW` of
the block at hand, and a statement over all states covers every width. -/
def nw : Nat := 2

/-- The witness multiplier (R7, R185). -/
def witnessMul : Nat := 48271

/-- The identification word, the ASCII bytes "MEE1" (R31). -/
def idValue : BitVec 32 := 0x4D454531

/-- `LNB n`, the engine's value of `floor (2 * (ln n)^2)`. The spec leaves it to the implementation and a model may assume
of it only that it depends on `n` alone (R8, R195; log 2), so it has no body. -/
opaque lnb : Nat → Nat

/-- `bitlen v`, the number of bits of `v` without leading zeros (R11). -/
def bitlen (v : Nat) : Nat := if v = 0 then 0 else Nat.log2 v + 1

/-- How many low bits the logarithm estimate drops: `max 0 (bitlen n - 64)` (R8). -/
def lnShift (n : Nat) : Nat := bitlen n - 64

/-- `v` is the reference value `LNB_ref n = floor (2 * L^2)` with `L = ln (n >> sh) + sh * ln 2` in exact reals (R8). A
property a claim may take as a hypothesis; the machine never uses it. -/
def IsLnbRef (n v : Nat) : Prop :=
  v = ⌊2 * (Real.log ((n >>> lnShift n : Nat) : ℝ) + (lnShift n : ℝ) * Real.log 2) ^ 2⌋₊

end Sys2Proof.Config
end

