-- ==== Sys2Proof/Word.lean ====
section
/-! DEFINITION. The word types of the register port: one 32-bit data word and one 10-bit word index
(spec/20_memory.md R60, R61). -/

namespace Sys2Proof

/-- A word of the register port, and a command word (R60, R90). -/
abbrev Word := BitVec 32

/-- A word index of the register port, `0x000 .. 0x3FF` (R60). -/
abbrev PortIdx := BitVec 10

end Sys2Proof
end

