-- ==== Sys2Proof/Machine/State.lean ====
section
/-! DEFINITION. The state of the block (spec/10_state.md R20), the environment's part of it, why a step may stop, and the
state after reset (R43). -/

namespace Sys2Proof.Machine

/-- The sequencer register `phase`, eleven names without a numeric encoding (R36). -/
inductive Phase where
  | idle | start | pmLoop | f2Loop | tdLoop | mrStart | mrSeed | mrdBound | mrRound | mrCheckX | mrSq
  deriving DecidableEq, Repr

/-- The continuation tag `ret`: commit the result, or continue the witness loop (R38). -/
inductive Ret where
  | cmd | mr
  deriving DecidableEq, Repr

/-- The values of `ERRCODE`; no other occurs (R28, R240). -/
inductive ErrCode where
  | none | invalidInput | sourceUnavailable | illegalCommand
  deriving DecidableEq, Repr

/-- `STATUS`, field by field (R28); its reserved bits read 0 and hold nothing. -/
structure Status where
  /-- Bit 0: a command is running. -/
  busy    : Bool
  /-- Bit 1: a command was committed or rejected and the host has not acknowledged it. -/
  done    : Bool
  /-- Bit 2: the last completed command ended in error. -/
  err     : Bool
  /-- Bit 3: the Boolean result of a testing command. -/
  verdict : Bool
  /-- Bit 4: `verdict` is the last command's result. -/
  vvalid  : Bool
  /-- Bit 5, sticky: a host write was ignored because a command was running. -/
  wign    : Bool
  /-- Bits 11:8. -/
  errcode : ErrCode
  deriving DecidableEq, Repr

/-- The working registers (R37), none visible at the port, as naturals under the range invariant R44 (R9, log 8). -/
structure Work where
  /-- The number under test. -/
  nn : Nat
  /-- Running result of the exponentiation. -/
  r  : Nat
  /-- Running base. -/
  b  : Nat
  /-- Running exponent. -/
  e  : Nat
  /-- Modulus of the exponentiation. -/
  m  : Nat
  /-- Running value of the factorisation. -/
  fd : Nat
  /-- Count of shifts of the factorisation. -/
  fs : Nat
  /-- Odd part of `nn - 1`. -/
  d  : Nat
  /-- Exponent of two in `nn - 1`. -/
  s  : Nat
  /-- Current witness, or the seed before the first round of MR. -/
  w  : Nat
  /-- The value being squared in a round. -/
  x  : Nat
  /-- Witness bound of MRD. -/
  wb : Nat
  /-- Rounds still to run in MR and CHECK. -/
  i  : Nat
  /-- Squarings still allowed in the current round. -/
  j  : Nat
  /-- Index into the prime ROM. -/
  k  : Nat
  deriving DecidableEq, Repr

/-- What the randomness source drives on its inputs of the block at one moment (R40). -/
structure RngPins where
  /-- `rng_valid`. -/
  valid : Bool
  /-- `rng_fail`. -/
  fail  : Bool
  /-- `rng_word`. -/
  word  : Word
  deriving DecidableEq, Repr

/-- What moves next (R14, R74). DESIGN CHOICE (log 4), safe: a list in State, over which every statement quantifies. -/
inductive Event where
  /-- The host reads the word at `idx` (R220). -/
  | read (idx : PortIdx)
  /-- The host writes `v` at `idx` (R221 to R226). -/
  | write (idx : PortIdx) (v : Word)
  /-- The engine takes a micro-step if it is busy (R121). -/
  | engine
  /-- The host polls `STATUS` until `DONE`, the engine moving in between (R228; log 7). -/
  | wait
  /-- The `rst` input (R270). -/
  | rst
  deriving DecidableEq, Repr

/-- The state of the block, and after it the environment's part (`rdata`, `events`, `rng`), which is the model's own. -/
structure State where
  /-- `NW`, the contents of the constant register `PARAM` (R32); no step changes it (R45, log 1). -/
  nw      : Nat
  /-- First operand of every command, `W` bits (R21). -/
  A       : Nat
  /-- `exp` operand of POWMOD, `W` bits (R22). -/
  E       : Nat
  /-- `mod` operand of POWMOD, `W` bits (R23). -/
  M       : Nat
  /-- The big-integer result, `W` bits (R24). -/
  R       : Nat
  /-- The exponent of two after FAC2 (R25). -/
  S       : Word
  /-- `CTRL.IE` (R27). -/
  ie      : Bool
  /-- `STATUS` (R28). -/
  status  : Status
  /-- The last word written to `CMD` while idle (R30). -/
  lastcmd : Word
  /-- The sequencer register (R36). -/
  phase   : Phase
  /-- The continuation tag (R38). -/
  ret     : Ret
  /-- The working registers (R37). -/
  work    : Work
  /-- `rng_req`, the request output of the randomness port (R40). -/
  rngReq  : Bool
  /-- The word driven on `p_rdata` by the last host read (R60, log 6). -/
  rdata   : Word
  /-- What moves next, the first first; when the list is empty the engine moves (log 4). -/
  events  : List Event
  /-- What the source drives at each coming `MR_SEED` micro-step; when the list is empty it is silent (log 5). -/
  rng     : List RngPins
  deriving DecidableEq, Repr

/-- Why the machine may stop. -/
inductive Fault where
  /-- Raised by `step` alone, when the engine is busy and `LASTCMD` is no command. R124 says this cannot be: only legal words
  set `BUSY`. Safe (log 9): the invariant `Inv` of Sys2Proof/Safety.lean excludes it and every step keeps `Inv`. -/
  | busyWithoutCommand
  deriving DecidableEq, Repr

/-- Why an instruction has no meaning. -/
inductive Refusal where
  /-- Raised by an arm of `exec` whose instruction is not modelled; safe. No arm raises it. -/
  | notModelled (mnemonic : String)
  deriving DecidableEq, Repr

/-- Every `STATUS` field at 0 (R43). -/
def Status.reset : Status :=
  { busy := false, done := false, err := false, verdict := false, vvalid := false, wign := false, errcode := .none }

/-- The working registers after reset. DESIGN CHOICE (log 3), unsafe: R43 leaves them unspecified; R281 says no command
reads one before writing it. -/
def Work.reset : Work :=
  { nn := 0, r := 0, b := 0, e := 0, m := 0, fd := 0, fs := 0, d := 0, s := 0, w := 0, x := 0, wb := 0, i := 0, j := 0,
    k := 0 }

/-- The reset state of a block with `NW = nw` (R43), with a host that does nothing and a silent source. -/
def State.resetFor (nw : Nat) : State :=
  { nw := nw, A := 0, E := 0, M := 0, R := 0, S := 0, ie := false, status := Status.reset, lastcmd := 0, phase := .idle,
    ret := .cmd, work := Work.reset, rngReq := false, rdata := 0, events := [], rng := [] }

/-- The machine right after reset, for the instance `Config.nw` (log 1). -/
def State.reset : State := State.resetFor Config.nw

end Sys2Proof.Machine
end

