-- ==== Sys2Proof/Machine/Flags.lean ====
section
/-! DEFINITION. Every computation on `STATUS` and `CTRL`: the words the host reads (spec/10_state.md R27, R28), what acceptance,
a commit, an error, an ignored write and a write of `STATUS` do to the flags (spec/40_command_lifecycle.md R123, R127, R128;
spec/20_memory.md R66; spec/45_host_operations.md R224, R225), and the interrupt line (R41). The block has no arithmetic
flags (R33). -/

namespace Sys2Proof.Machine

/-- The number of an error code (R240). -/
def ErrCode.code : ErrCode → Nat
  | .none => 0
  | .invalidInput => 1
  | .sourceUnavailable => 2
  | .illegalCommand => 3

/-- The word a read of `STATUS` returns (R28). -/
def Status.word (t : Status) : Word :=
  BitVec.ofNat 32 (t.busy.toNat + 2 * t.done.toNat + 4 * t.err.toNat + 8 * t.verdict.toNat + 16 * t.vvalid.toNat +
    32 * t.wign.toNat + 256 * t.errcode.code)

/-- The word a read of `CTRL` returns: bit 0 is `IE`, the others 0 (R27). -/
def ctrlWord (ie : Bool) : Word := BitVec.ofNat 32 ie.toNat

/-- The status cleared by the acceptance of a `CMD` write; `WIGN` and `BUSY` are kept (R123). -/
def Status.cleared (t : Status) : Status :=
  { t with done := false, err := false, errcode := .none, vvalid := false, verdict := false }

/-- `BUSY <- 0`, `DONE <- 1` (R127, R128). -/
def Status.finished (t : Status) : Status := { t with busy := false, done := true }

/-- The status after an error (R128). -/
def Status.failed (t : Status) (code : ErrCode) : Status := { t.finished with err := true, errcode := code }

/-- The status after a verdict (R127). -/
def Status.judged (t : Status) (q : Bool) : Status := { t.finished with verdict := q, vvalid := true }

/-- The status after a write of `v` to `STATUS`: bits 1 and 5 clear `DONE` and `WIGN` (R224, R225). -/
def Status.writeOneToClear (t : Status) (v : Word) : Status :=
  { t with done := t.done && !v.getLsbD 1, wign := t.wign && !v.getLsbD 5 }

/-- The interrupt output: `CTRL.IE and STATUS.DONE` (R41, R246). -/
def State.irq (s : State) : Bool := s.ie && s.status.done

end Sys2Proof.Machine
end

