-- ==== Sys2Proof/Syntax.lean ====
section
/-! DEFINITION. The eight commands of MEE command set 1 (spec/30_encoding.md R96), one constructor per row of
spec/opcode_table.json. -/

namespace Sys2Proof

/-- A command. The operands in `A`, `E`, `M` are implicit (R94); `acc` is the accuracy immediate (R93). -/
inductive Instr where
  /-- POWMOD, format N (R140). -/
  | powmod
  /-- FAC2, format N (R145). -/
  | fac2
  /-- TDIV100, format T with `T = 0` (R163). -/
  | tdiv100
  /-- TDIV1000, format T with `T = 1` (R164). -/
  | tdiv1000
  /-- MR `#acc`, format A (R180). -/
  | mr (acc : Nat)
  /-- MRD, format N (R181). -/
  | mrd
  /-- CHECK100 `#acc`, format TA with `T = 0` (R210). -/
  | check100 (acc : Nat)
  /-- CHECK1000 `#acc`, format TA with `T = 1` (R211). -/
  | check1000 (acc : Nat)
  deriving DecidableEq, Repr

end Sys2Proof
end

