-- ==== Sys2Proof/WellFormed.lean ====
section
/-! DEFINITION. Which commands can be written as a command word: the accuracy fits its 16-bit field (spec/30_encoding.md
R93, R99: an `acc` outside `0 .. 65535` is an assembly error, not a command). -/

namespace Sys2Proof

/-- The largest accuracy the field `ACC` holds (R93). -/
def maxAcc : Nat := 65535

/-- The accuracy immediate is in `0 .. 65535`; a command without one is always well formed. -/
def Instr.wellFormed : Instr → Bool
  | .powmod => true
  | .fac2 => true
  | .tdiv100 => true
  | .tdiv1000 => true
  | .mr acc => decide (acc ≤ maxAcc)
  | .mrd => true
  | .check100 acc => decide (acc ≤ maxAcc)
  | .check1000 acc => decide (acc ≤ maxAcc)

end Sys2Proof
end

