-- ==== Sys2Proof/Decode.lean ====
section
/-! DEFINITION. The command word (spec/30_encoding.md R90 to R97): its fields, the decoder, total on every 32-bit word and
rejecting by name, the encoder, and the opcode table as rows of match and mask. -/

namespace Sys2Proof

/-- `opcode`, bits 7:0 (R91). -/
def opcodeField (cw : Word) : Nat := (cw.extractLsb' 0 8).toNat

/-- `T`, bit 8 (R91). -/
def tableField (cw : Word) : Bool := cw.getLsbD 8

/-- `rsv`, bits 15:9 (R91). -/
def reservedField (cw : Word) : Nat := (cw.extractLsb' 9 7).toNat

/-- `ACC`, bits 31:16, unsigned and unscaled (R91, R93). -/
def accField (cw : Word) : Nat := (cw.extractLsb' 16 16).toNat

/-- Why a word is illegal: the four cases of R97. -/
inductive Illegal where
  /-- The opcode is `0x00` or one of `0x07 .. 0xFF`. -/
  | opcode
  /-- A bit of `rsv` is set. -/
  | reserved
  /-- `T = 1` in a format without `T`. -/
  | table
  /-- `ACC` is not zero in a format without `ACC`. -/
  | accuracy
  deriving DecidableEq, Repr

/-- Format N: `ACC` and `T` must be zero (R92). -/
def formatN (t : Bool) (acc : Nat) (i : Instr) : Except Illegal Instr :=
  if t then .error .table else if acc = 0 then .ok i else .error .accuracy

/-- Format T: `ACC` must be zero, `T` selects the table (R92). -/
def formatT (t : Bool) (acc : Nat) (short long : Instr) : Except Illegal Instr :=
  if acc = 0 then .ok (if t then long else short) else .error .accuracy

/-- Format A: `T` must be zero (R92). -/
def formatA (t : Bool) (i : Instr) : Except Illegal Instr :=
  if t then .error .table else .ok i

/-- Format TA: `T` selects the table (R92). -/
def formatTA (t : Bool) (short long : Instr) : Except Illegal Instr :=
  .ok (if t then long else short)

/-- The decoder (R95): every word is one of the eight commands or illegal. -/
def decode (cw : Word) : Except Illegal Instr :=
  if reservedField cw = 0 then
    match opcodeField cw with
    | 0x01 => formatN (tableField cw) (accField cw) .powmod
    | 0x02 => formatN (tableField cw) (accField cw) .fac2
    | 0x03 => formatT (tableField cw) (accField cw) .tdiv100 .tdiv1000
    | 0x04 => formatA (tableField cw) (.mr (accField cw))
    | 0x05 => formatN (tableField cw) (accField cw) .mrd
    | 0x06 => formatTA (tableField cw) (.check100 (accField cw)) (.check1000 (accField cw))
    | _ => .error .opcode
  else .error .reserved

/-- `legal(cw)`: the word is a command (R95). -/
def legal (cw : Word) : Bool :=
  match decode cw with
  | .ok _ => true
  | .error _ => false

/-- The word with accuracy `acc` and the low half `low` (R99). -/
def accWord (acc : Nat) (low : Word) : Word := (BitVec.ofNat 32 acc <<< 16) ||| low

/-- The word of a command (R99). -/
def encode : Instr → Word
  | .powmod => 0x00000001
  | .fac2 => 0x00000002
  | .tdiv100 => 0x00000003
  | .tdiv1000 => 0x00000103
  | .mr acc => accWord acc 0x00000004
  | .mrd => 0x00000005
  | .check100 acc => accWord acc 0x00000006
  | .check1000 acc => accWord acc 0x00000106

/-- The match and mask columns of R96, in the table's order. -/
def opcodeTable : List (Word × Word) :=
  [(0x00000001, 0xFFFFFFFF), (0x00000002, 0xFFFFFFFF), (0x00000003, 0xFFFFFFFF), (0x00000103, 0xFFFFFFFF),
   (0x00000004, 0x0000FFFF), (0x00000005, 0xFFFFFFFF), (0x00000006, 0x0000FFFF), (0x00000106, 0x0000FFFF)]

/-- `cw` selects the row: `(cw and mask) = match` (R96). -/
def rowMatches (cw : Word) (row : Word × Word) : Bool := cw &&& row.2 == row.1

/-- The word the host lays out from the opcode table's numbering: the low `nbits` bits of `w`, every bit above them 0. A
command is one 32-bit word (R90), so a wider number is none. -/
def tableWord (nbits w : Nat) : Option Word :=
  if w % 2 ^ nbits < 2 ^ 32 then some (BitVec.ofNat 32 (w % 2 ^ nbits)) else none

/-- The command the decoder reads from a word numbered as spec/opcode_table.json numbers it. -/
def decodeTableWord (nbits w : Nat) : Option Instr :=
  match tableWord nbits w with
  | some cw =>
    match decode cw with
    | .ok i => some i
    | .error _ => none
  | none => none

end Sys2Proof
end

