-- ==== Sys2Proof/Machine/Operands.lean ====
section
/-! DEFINITION. What a running command takes from `LASTCMD` (spec/10_state.md R30, R38; spec/30_encoding.md R91, R94), and the
32-bit words of a big register (spec/20_memory.md R67). -/

namespace Sys2Proof.Machine

/-- The tag `mode`: deterministic for MRD, probabilistic otherwise (R38). -/
inductive Mode where
  | prob | det
  deriving DecidableEq, Repr

/-- The fields the engine takes from `LASTCMD` while a command runs (R30). -/
structure CmdFields where
  /-- `op = LASTCMD[7:0]`. -/
  op   : Nat
  /-- `tsel = LASTCMD[8]`. -/
  tsel : Bool
  /-- `acc = LASTCMD[31:16]`. -/
  acc  : Nat
  deriving DecidableEq, Repr

/-- The fields of each command (R91, R96). -/
def cmdFields : Instr → CmdFields
  | .powmod => { op := 0x01, tsel := false, acc := 0 }
  | .fac2 => { op := 0x02, tsel := false, acc := 0 }
  | .tdiv100 => { op := 0x03, tsel := false, acc := 0 }
  | .tdiv1000 => { op := 0x03, tsel := true, acc := 0 }
  | .mr acc => { op := 0x04, tsel := false, acc := acc }
  | .mrd => { op := 0x05, tsel := false, acc := 0 }
  | .check100 acc => { op := 0x06, tsel := false, acc := acc }
  | .check1000 acc => { op := 0x06, tsel := true, acc := acc }

/-- `mode` (R38). -/
def CmdFields.mode (f : CmdFields) : Mode := if f.op = 0x05 then .det else .prob

/-- `klim`, the number of ROM entries tested (R94). -/
def CmdFields.klim (f : CmdFields) : Nat := if f.tsel then 1000 else 100

/-- The largest operand the witness loop rejects (R183). -/
def Mode.limit : Mode → Nat
  | .prob => 4
  | .det => 3

/-- Word `t` of a big register, its bits `32t+31 .. 32t` (R67). -/
def getWord (v t : Nat) : Word := BitVec.ofNat 32 (v / 2 ^ (32 * t))

/-- The big register with word `t` replaced and every other bit kept (R221). -/
def setWord (v t : Nat) (x : Word) : Nat :=
  v % 2 ^ (32 * t) + x.toNat * 2 ^ (32 * t) + v / 2 ^ (32 * (t + 1)) * 2 ^ (32 * (t + 1))

/-- The value of the `n` lowest words: `sum word[t] * 2^(32t)` (R67). -/
def bigOfWords (word : Nat → Word) : Nat → Nat
  | 0 => 0
  | n + 1 => bigOfWords word n + (word n).toNat * 2 ^ (32 * n)

/-- A 32-bit word zero-extended to `W` bits (R11, R186). -/
def zextW (x : Word) : Nat := x.toNat

end Sys2Proof.Machine
end

