-- ==== Sys2Proof/Machine/Ops.lean ====
section
/-! DEFINITION. The named operations on the state: the end of a command with and without error
(spec/40_command_lifecycle.md R127, R128), reset (spec/70_reset_and_hazards.md R270), acceptance (R123), and the register port
(spec/20_memory.md R62 to R66; spec/45_host_operations.md R220 to R228). -/

namespace Sys2Proof.Machine

/-- The result writes of a command that ends without error (R127). -/
inductive Result where
  /-- `R <- v` (POWMOD). -/
  | big (v : Nat)
  /-- `R <- d`, `S <- s` (FAC2). -/
  | factors (s d : Nat)
  /-- `VERDICT <- q`, `VVALID <- 1` (the six testing commands). -/
  | verdict (q : Bool)
  deriving DecidableEq, Repr

/-- `complete_ok`: the commit of a command that ends without error (R127). -/
def completeOk (res : Result) (s : State) : State :=
  match res with
  | .big v => { s with R := v, status := s.status.finished, phase := .idle }
  | .factors u v => { s with R := v, S := BitVec.ofNat 32 u, status := s.status.finished, phase := .idle }
  | .verdict q => { s with status := s.status.judged q, phase := .idle }

/-- `complete_err`, the one way an error is taken (R128, R248): the cause is saved in `ERRCODE`, the engine is idle again.
There is no handler, no saved pc and no return; the next accepted `CMD` write clears the error (R251). -/
def completeErr (code : ErrCode) (s : State) : State :=
  { s with status := s.status.failed code, phase := .idle, rngReq := false }

/-- Reset, by `rst` or by `CTRL.SRST` (R226, R270): the block takes its reset state, whatever it was doing. The environment
(`rdata`, `events`, `rng`) is not the block's and stays (log 10). -/
def resetBlock (s : State) : State :=
  { State.resetFor s.nw with rdata := s.rdata, events := s.events, rng := s.rng }

/-- Acceptance of the word `cw` written to `CMD` while idle (R123): a legal word starts the engine, any other raises
`IllegalCommand` in the same step (R243). -/
def acceptCmd (cw : Word) (s : State) : State :=
  if legal cw then
    { s with lastcmd := cw, status := { s.status.cleared with busy := true }, phase := .start }
  else
    completeErr .illegalCommand { s with lastcmd := cw, status := s.status.cleared }

/-- What is at a word index of the port (R64). -/
inductive PortReg where
  | id | param | ctrl | status | cmd | lastcmd | s
  | aWord (t : Nat) | eWord (t : Nat) | mWord (t : Nat) | rWord (t : Nat)
  | reserved
  deriving DecidableEq, Repr

/-- A window of a big register: word `t` below `NW`, the rest reserved (R64, R65). -/
def window (nw t : Nat) (word : Nat → PortReg) : PortReg := if t < nw then word t else .reserved

/-- The address map of a block with `NW = nw` (R64). -/
def portMap (nw : Nat) (idx : PortIdx) : PortReg :=
  if idx.toNat = 0x000 then .id
  else if idx.toNat = 0x001 then .param
  else if idx.toNat = 0x002 then .ctrl
  else if idx.toNat = 0x003 then .status
  else if idx.toNat = 0x004 then .cmd
  else if idx.toNat = 0x005 then .lastcmd
  else if idx.toNat = 0x006 then .s
  else if idx.toNat < 0x080 then .reserved
  else if idx.toNat < 0x100 then window nw (idx.toNat - 0x080) .aWord
  else if idx.toNat < 0x180 then window nw (idx.toNat - 0x100) .eWord
  else if idx.toNat < 0x200 then window nw (idx.toNat - 0x180) .mWord
  else window nw (idx.toNat - 0x200) .rWord

/-- `MemRead(idx, 4)` (R62, R220): the word at `idx`, busy or idle (R68). -/
def memRead (s : State) (idx : PortIdx) : Word :=
  match portMap s.nw idx with
  | .id => Config.idValue
  | .param => BitVec.ofNat 32 s.nw
  | .ctrl => ctrlWord s.ie
  | .status => s.status.word
  | .cmd => 0
  | .lastcmd => s.lastcmd
  | .s => s.S
  | .aWord t => getWord s.A t
  | .eWord t => getWord s.E t
  | .mWord t => getWord s.M t
  | .rWord t => getWord s.R t
  | .reserved => 0

/-- A host write dropped because the engine is busy (R66). -/
def ignoreWrite (s : State) : State := { s with status := { s.status with wign := true } }

/-- A write that takes effect only while idle (R66). -/
def whenIdle (s : State) (effect : State → State) : State :=
  if s.status.busy then ignoreWrite s else effect s

/-- A write to `CTRL`: soft reset if bit 1 is set, else `IE` (R223, R226). -/
def writeCtrl (v : Word) (s : State) : State :=
  if v.getLsbD 1 then resetBlock s else { s with ie := v.getLsbD 0 }

/-- `MemWrite(idx, 4, v)` (R63): read-only and reserved indices ignore it (R65). -/
def memWrite (s : State) (idx : PortIdx) (v : Word) : State :=
  match portMap s.nw idx with
  | .id => s
  | .param => s
  | .ctrl => writeCtrl v s
  | .status => { s with status := s.status.writeOneToClear v }
  | .cmd => whenIdle s (acceptCmd v)
  | .lastcmd => s
  | .s => s
  | .aWord t => whenIdle s fun u => { u with A := setWord u.A t v }
  | .eWord t => whenIdle s fun u => { u with E := setWord u.E t v }
  | .mWord t => whenIdle s fun u => { u with M := setWord u.M t v }
  | .rWord _ => s
  | .reserved => s

/-- A host read: the word goes to `p_rdata`, the block is unchanged (R62). -/
def hostRead (s : State) (idx : PortIdx) : State := { s with rdata := memRead s idx }

/-- Word index of `CTRL` (R27). -/
def ctrlIdx : PortIdx := 0x002
/-- Word index of `STATUS` (R28). -/
def statusIdx : PortIdx := 0x003
/-- Word index of `CMD` (R29). -/
def cmdIdx : PortIdx := 0x004

/-- The command the engine is running, read from `LASTCMD` (R30, R77). -/
def currentCommand (s : State) : Except Illegal Instr := decode s.lastcmd

/-- The state just after the acceptance of the word `cw`, the engine to move next (R123); what `withFetchWord` places. -/
def startWord (s : State) (cw : Word) : State :=
  { s with lastcmd := cw, status := { s.status.cleared with busy := true }, phase := .start, events := .engine :: s.events }

/-- A command line: the host's write of its word (R99, R222). -/
def command (i : Instr) : Event := .write cmdIdx (encode i)

/-- The big registers the host can load (R100). -/
inductive BigReg where
  | a | e | m
  deriving DecidableEq, Repr

/-- Word index of word 0 of the register's window (R100). -/
def BigReg.base : BigReg → Nat
  | .a => 0x080
  | .e => 0x100
  | .m => 0x180

/-- `LDBIG X, v` (R100, R227): `NW` writes in increasing `t`. -/
def ldbig (nw : Nat) (X : BigReg) (v : Nat) : List Event :=
  (List.range nw).map fun t => .write (BitVec.ofNat 10 (X.base + t)) (getWord v t)

/-- The reads of `RDBIG R` (R100, R227), in increasing `t`. -/
def rdbig (nw : Nat) : List Event := (List.range nw).map fun t => .read (BitVec.ofNat 10 (0x200 + t))

/-- The value of `RDBIG R`: `sum word[t] * 2^(32t)` over the words at `0x200 + t` (R100, R227). -/
def rdbigValue (s : State) : Nat := bigOfWords (fun t => memRead s (BitVec.ofNat 10 (0x200 + t))) s.nw

/-- `ACK` (R100, R224). -/
def ack : Event := .write statusIdx 0x00000002

/-- `RESET` (R100, R226). -/
def softReset : Event := .write ctrlIdx 0x00000002

end Sys2Proof.Machine
end

