-- ==== Sys2Proof/Machine/Phases.lean ====
section
/-! DEFINITION. The micro-step rule of each phase but `IDLE` and `START` (spec/41_modular_arithmetic.md R142, R143, R147, R148;
spec/42_trial_division.md R162; spec/43_miller_rabin.md R183, R186 to R192). All values are exact naturals (R9, R150). -/

namespace Sys2Proof.Machine

/-- One pass of square-and-multiply; both products use the old `b` (R142). -/
def pmPass (w : Work) : Work :=
  { w with r := if w.e % 2 = 1 then w.r * w.b % w.m else w.r, b := w.b * w.b % w.m, e := w.e / 2 }

/-- `PM_LOOP`: a pass (R142), or the exit to where `ret` says (R143). -/
def pmLoop (s : State) : State :=
  if s.work.e = 0 then
    match s.ret with
    | .cmd => completeOk (.big s.work.r) s
    | .mr => { s with work := { s.work with x := s.work.r }, phase := .mrCheckX }
  else { s with work := pmPass s.work, phase := .pmLoop }

/-- `F2_LOOP`: strip a trailing zero bit (R147), or the exit to where `ret` says (R148). -/
def f2Loop (f : CmdFields) (s : State) : State :=
  if s.work.fd % 2 = 0 then
    { s with work := { s.work with fd := s.work.fd / 2, fs := s.work.fs + 1 }, phase := .f2Loop }
  else
    match s.ret with
    | .cmd => completeOk (.factors s.work.fs s.work.fd) s
    | .mr =>
      let w := { s.work with d := s.work.fd, s := s.work.fs }
      match f.mode with
      | .prob => { s with work := w, phase := .mrSeed, rngReq := true }
      | .det => { s with work := w, phase := .mrdBound }

/-- The entry `p` rejects `n`: it divides `n` and is not `n` (R162). -/
def rejects (p n : Nat) : Bool := n % p = 0 && n ≠ p

/-- `TD_LOOP`: test one table entry, or finish (R162). -/
def tdLoop (f : CmdFields) (s : State) : State :=
  if s.work.k = f.klim then
    if f.op = 0x03 then completeOk (.verdict true) s else { s with phase := .mrStart }
  else if rejects (prime s.work.k) s.work.nn then completeOk (.verdict false) s
  else { s with work := { s.work with k := s.work.k + 1 }, phase := .tdLoop }

/-- `MR_START`: the precondition of the witness loop and the set-up of the factorisation of `nn - 1` (R183). -/
def mrStart (f : CmdFields) (s : State) : State :=
  if s.work.nn ≤ f.mode.limit then completeErr .invalidInput s
  else { s with work := { s.work with fd := s.work.nn - 1, fs := 0 }, ret := .mr, phase := .f2Loop }

/-- `MR_SEED`: take the seed from what the source drives now; a failure wins over a word (R186). With no answer nothing of
the block changes: the engine waits, with `BUSY` and `rng_req` at 1 (R187). -/
def mrSeed (f : CmdFields) (s : State) : State :=
  match s.rng with
  | [] => s
  | p :: rest =>
    if p.fail then completeErr .sourceUnavailable { s with rng := rest }
    else if p.valid then
      { s with rng := rest, work := { s.work with w := zextW p.word, i := f.acc }, rngReq := false, phase := .mrRound }
    else { s with rng := rest }

/-- `MRD_BOUND`: the witness bound and the first witness (R188). -/
def mrdBound (s : State) : State :=
  { s with work := { s.work with wb := min (s.work.nn - 1) (Config.lnb s.work.nn), w := 2 }, phase := .mrRound }

/-- The witness update of the probabilistic test (R185). -/
def lcg (w n : Nat) : Nat := w * Config.witnessMul % (n - 4) + 2

/-- The start of the exponentiation `w^d mod nn` of a round (R189, R190). -/
def startRound (w : Work) (s : State) : State :=
  { s with work := { w with r := 1, b := w.w, e := w.d, m := w.nn }, ret := .mr, phase := .pmLoop }

/-- `MR_ROUND`: end the loop or start a round (R189, R190). -/
def mrRound (f : CmdFields) (s : State) : State :=
  match f.mode with
  | .prob =>
    if s.work.i = 0 then completeOk (.verdict true) s
    else startRound { s.work with i := s.work.i - 1, w := lcg s.work.w s.work.nn } s
  | .det =>
    if s.work.wb < s.work.w then completeOk (.verdict true) s else startRound s.work s

/-- A round passes: MRD goes on to the next witness (R191, R192). -/
def roundPasses (f : CmdFields) (w : Work) (s : State) : State :=
  match f.mode with
  | .prob => { s with work := w, phase := .mrRound }
  | .det => { s with work := { w with w := w.w + 1 }, phase := .mrRound }

/-- The number of squarings a round allows (R184, R191). -/
def squarings (s : Nat) : Nat := if s = 0 then 0 else s - 1

/-- `MR_CHECKX`: the first test of a round, on `x = w^d mod nn` (R191). -/
def mrCheckX (f : CmdFields) (s : State) : State :=
  if s.work.x = 1 ∨ s.work.x = s.work.nn - 1 then roundPasses f s.work s
  else { s with work := { s.work with j := squarings s.work.s }, phase := .mrSq }

/-- `MR_SQ`: one squaring of a round, tested on the new `x`, or the failure of the round (R192). -/
def mrSq (f : CmdFields) (s : State) : State :=
  if s.work.j = 0 then completeOk (.verdict false) s
  else
    let w := { s.work with x := s.work.x * s.work.x % s.work.nn, j := s.work.j - 1 }
    if w.x = w.nn - 1 then roundPasses f w s else { s with work := w, phase := .mrSq }

/-- The micro-step of the current phase, `start` being the command's START action (R121, R122, R124). An engine in `IDLE`
takes none. Which phases a command reaches follows from its START action; in a phase it never reaches the rule of that
phase still says what happens (log 11). -/
def microStep (start : State → State) (f : CmdFields) (s : State) : State :=
  match s.phase with
  | .idle => s
  | .start => start s
  | .pmLoop => pmLoop s
  | .f2Loop => f2Loop f s
  | .tdLoop => tdLoop f s
  | .mrStart => mrStart f s
  | .mrSeed => mrSeed f s
  | .mrdBound => mrdBound s
  | .mrRound => mrRound f s
  | .mrCheckX => mrCheckX f s
  | .mrSq => mrSq f s

end Sys2Proof.Machine
end

