-- ==== Sys2Proof/Machine/TrialDiv.lean ====
section
/-! DEFINITION. TDIV100 and TDIV1000 (spec/42_trial_division.md R161, R163, R164), and the START action they share with CHECK. -/

namespace Sys2Proof.Machine

/-- START action of TDIV100, TDIV1000, CHECK100 and CHECK1000: no precondition (R161). -/
def startFilter (s : State) : State :=
  { s with work := { s.work with nn := s.A, k := 0 }, phase := .tdLoop }

/-- TDIV100: one micro-step (R163). -/
def execTdiv100 (s : State) : Host.Outcome State Fault Refusal :=
  .next (microStep startFilter (cmdFields .tdiv100) s)

/-- TDIV1000: one micro-step (R164). -/
def execTdiv1000 (s : State) : Host.Outcome State Fault Refusal :=
  .next (microStep startFilter (cmdFields .tdiv1000) s)

end Sys2Proof.Machine
end

