-- ==== Sys2Proof/Machine/Check.lean ====
section
/-! DEFINITION. CHECK100 and CHECK1000, the filter and then the witness loop (spec/44_candidate_check.md R210, R211). -/

namespace Sys2Proof.Machine

/-- CHECK100: one micro-step (R210). -/
def execCheck100 (acc : Nat) (s : State) : Host.Outcome State Fault Refusal :=
  .next (microStep startFilter (cmdFields (.check100 acc)) s)

/-- CHECK1000: one micro-step (R211). -/
def execCheck1000 (acc : Nat) (s : State) : Host.Outcome State Fault Refusal :=
  .next (microStep startFilter (cmdFields (.check1000 acc)) s)

end Sys2Proof.Machine
end

