-- ==== Sys2Proof/Machine/MillerRabin.lean ====
section
/-! DEFINITION. MR and MRD (spec/43_miller_rabin.md R180, R181, R182). -/

namespace Sys2Proof.Machine

/-- START action of MR and MRD (R182). -/
def startTest (s : State) : State :=
  { s with work := { s.work with nn := s.A }, phase := .mrStart }

/-- MR: one micro-step (R180). -/
def execMr (acc : Nat) (s : State) : Host.Outcome State Fault Refusal :=
  .next (microStep startTest (cmdFields (.mr acc)) s)

/-- MRD: one micro-step (R181). -/
def execMrd (s : State) : Host.Outcome State Fault Refusal :=
  .next (microStep startTest (cmdFields .mrd) s)

end Sys2Proof.Machine
end

