-- ==== Sys2Proof/Machine/ModArith.lean ====
section
/-! DEFINITION. POWMOD and FAC2 (spec/41_modular_arithmetic.md R140, R141, R145, R146). -/

namespace Sys2Proof.Machine

/-- START action of POWMOD (R141). -/
def startPowmod (s : State) : State :=
  if s.M = 0 then completeErr .invalidInput s
  else { s with work := { s.work with r := 1, b := s.A, e := s.E, m := s.M }, ret := .cmd, phase := .pmLoop }

/-- START action of FAC2 (R146). -/
def startFac2 (s : State) : State :=
  if s.A = 0 then completeErr .invalidInput s
  else { s with work := { s.work with fd := s.A, fs := 0 }, ret := .cmd, phase := .f2Loop }

/-- POWMOD: one micro-step (R140). -/
def execPowmod (s : State) : Host.Outcome State Fault Refusal :=
  .next (microStep startPowmod (cmdFields .powmod) s)

/-- FAC2: one micro-step (R145). -/
def execFac2 (s : State) : Host.Outcome State Fault Refusal :=
  .next (microStep startFac2 (cmdFields .fac2) s)

end Sys2Proof.Machine
end

