-- ==== Sys2Proof/Machine/Dispatch.lean ====
section
/-! DEFINITION. One micro-step of a running command, one arm per command (spec/40_command_lifecycle.md R121, R124). -/

namespace Sys2Proof.Machine

def exec (i : Instr) (s : State) : Host.Outcome State Fault Refusal :=
  match i with
  | .powmod => Sys2Proof.Machine.execPowmod s
  | .fac2 => Sys2Proof.Machine.execFac2 s
  | .tdiv100 => Sys2Proof.Machine.execTdiv100 s
  | .tdiv1000 => Sys2Proof.Machine.execTdiv1000 s
  | .mr acc => Sys2Proof.Machine.execMr acc s
  | .mrd => Sys2Proof.Machine.execMrd s
  | .check100 acc => Sys2Proof.Machine.execCheck100 acc s
  | .check1000 acc => Sys2Proof.Machine.execCheck1000 acc s

end Sys2Proof.Machine
end

