-- ==== Sys2Proof/Machine/Engine.lean ====
section
/-! DEFINITION. The engine's move and a poll of the host (spec/40_command_lifecycle.md R121; spec/45_host_operations.md R228). -/

namespace Sys2Proof.Machine

/-- The engine's move: while busy, one micro-step of the command in `LASTCMD`; while idle, nothing (R121). -/
def engineStep (s : State) : Host.Outcome State Fault Refusal :=
  if s.status.busy then
    match currentCommand s with
    | .ok i => exec i s
    | .error _ => .fault .busyWithoutCommand
  else .next s

/-- One poll of `WAIT` (R228): the host reads `STATUS`; if `DONE` is set it goes on, else the engine moves and the host
polls again (log 7). -/
def pollStep (s : State) (rest : List Event) : Host.Outcome State Fault Refusal :=
  if s.status.done then .next { hostRead s statusIdx with events := rest } else engineStep (hostRead s statusIdx)

end Sys2Proof.Machine
end

