-- ==== Sys2Proof/Machine/Step.lean ====
section
/-! DEFINITION. One step of the whole: what the environment does next, or one micro-step of the engine (spec/00_scope.md R14;
spec/20_memory.md R74; spec/40_command_lifecycle.md R121). -/

namespace Sys2Proof.Machine

/-- One step: the next event, or the engine when no event is listed (R14, R74). -/
def step (s : State) : Host.Outcome State Fault Refusal :=
  match s.events with
  | [] => engineStep s
  | .engine :: rest => engineStep { s with events := rest }
  | .read idx :: rest => .next (hostRead { s with events := rest } idx)
  | .write idx v :: rest => .next (memWrite { s with events := rest } idx v)
  | .wait :: rest => pollStep s rest
  | .rst :: rest => .next (resetBlock { s with events := rest })

/-- `s` with a command word placed where the engine finds its command, just accepted and the engine to move next, so that
the next step is the START micro-step of it (R123, R124; log 12). A word of more than 32 bits changes nothing. -/
def State.withFetchWord (s : State) (nbits w : Nat) : State :=
  match tableWord nbits w with
  | some cw => startWord s cw
  | none => s

end Sys2Proof.Machine
end

