-- ==== Sys2Proof/Machine/Results.lean ====
section
/-! DEFINITION. The result functions of the commands, written from the pseudocode of spec/41_modular_arithmetic.md R140, R145,
spec/42_trial_division.md R163, spec/43_miller_rabin.md R180, R181, R184 and spec/44_candidate_check.md R210. The micro-step
rules are the definition of the machine; that the two agree (R129) is stated, not built in. -/

namespace Sys2Proof.Machine

/-- The loop of `powmod_f` from `r`, `b`, `e`, at most `n` passes (R140). -/
def powmodFrom : Nat → Nat → Nat → Nat → Nat → Nat
  | 0, r, _, _, _ => r
  | n + 1, r, b, e, m =>
    if e = 0 then r else powmodFrom n (if e % 2 = 1 then r * b % m else r) (b * b % m) (e / 2) m

/-- `powmod_f(base, exp, mod)` for `mod > 0` (R140). -/
def powmodF (base exp mod : Nat) : Nat := powmodFrom (Config.bitlen exp) 1 base exp mod

/-- The loop of `fac2_f` from `d`, `s`, at most `n` shifts (R145). -/
def fac2From : Nat → Nat → Nat → Nat × Nat
  | 0, d, s => (s, d)
  | n + 1, d, s => if d % 2 = 0 then fac2From n (d / 2) (s + 1) else (s, d)

/-- `fac2_f(n) = (s, d)` for `n > 0` (R145). -/
def fac2F (n : Nat) : Nat × Nat := fac2From (Config.bitlen n) n 0

/-- `tdiv_f(n, klim)` (R163). -/
def tdivF (n klim : Nat) : Bool := (List.range klim).all fun k => !rejects (prime k) n

/-- The squarings of `round_f`: does one of the next `q` squares of `x` give `n - 1` (R184)? -/
def squaresToMinusOne : Nat → Nat → Nat → Bool
  | 0, _, _ => false
  | q + 1, x, n => if x * x % n = n - 1 then true else squaresToMinusOne q (x * x % n) n

/-- `round_f(n, s, d, a)`, true for pass (R184). -/
def roundF (n s d a : Nat) : Bool :=
  powmodF a d n = 1 || powmodF a d n = n - 1 || squaresToMinusOne (squarings s) (powmodF a d n) n

/-- The `acc` rounds of `mr_f` after witness (or seed) `w` (R180). -/
def mrRounds (n s d : Nat) : Nat → Nat → Bool
  | 0, _ => true
  | acc + 1, w => roundF n s d (lcg w n) && mrRounds n s d acc (lcg w n)

/-- `mr_f(n, acc, answer)`, the answer being what the source drives (R180, R186). -/
def mrF (n acc : Nat) (answer : RngPins) : Except ErrCode Bool :=
  if n ≤ 4 then .error .invalidInput
  else if answer.fail then .error .sourceUnavailable
  else .ok (mrRounds n (fac2F (n - 1)).1 (fac2F (n - 1)).2 acc (zextW answer.word))

/-- The rounds of `mrd_f` for `c` witnesses from `a` on (R181). -/
def mrdRounds (n s d : Nat) : Nat → Nat → Bool
  | 0, _ => true
  | c + 1, a => roundF n s d a && mrdRounds n s d c (a + 1)

/-- The witness bound `wb` of MRD (R181). -/
def mrdBoundF (n lnb : Nat) : Nat := min (n - 1) lnb

/-- `mrd_f(n)`, given the value `lnb = LNB(n)` (R181): the witnesses are `2, 3, .., wb`. -/
def mrdF (n lnb : Nat) : Except ErrCode Bool :=
  if n ≤ 3 then .error .invalidInput
  else .ok (mrdRounds n (fac2F (n - 1)).1 (fac2F (n - 1)).2 (mrdBoundF n lnb - 1) 2)

/-- `check_f(n, klim, acc, answer)` (R210). -/
def checkF (n klim acc : Nat) (answer : RngPins) : Except ErrCode Bool :=
  if tdivF n klim then mrF n acc answer else .ok false

end Sys2Proof.Machine
end

