-- ==== Sys2Proof/Safety.lean ====
section
/-! DEFINITION. The terms claims are stated in: a run of one command's micro-steps, the status a host reads at each stage of a
command's life, the transition graph of `phase`, and the invariant of the machine. -/

namespace Sys2Proof.Machine

/-- `n` micro-steps of the command `i` (R121). -/
def execN : Nat → Instr → State → Host.Outcome State Fault Refusal
  | 0, _, s => .next s
  | n + 1, i, s =>
    match exec i s with
    | .next t => execN n i t
    | .fault r => .fault r
    | .refused r => .refused r

/-- `STATUS` while a command runs (R123); `w` is the sticky `WIGN`. -/
def Status.running (w : Bool) : Status :=
  { busy := true, done := false, err := false, verdict := false, vvalid := false, wign := w, errcode := .none }

/-- `STATUS` after a POWMOD or FAC2 without error (R127). -/
def Status.ofResult (w : Bool) : Status :=
  { busy := false, done := true, err := false, verdict := false, vvalid := false, wign := w, errcode := .none }

/-- `STATUS` after a testing command without error (R127). -/
def Status.ofVerdict (w q : Bool) : Status :=
  { busy := false, done := true, err := false, verdict := q, vvalid := true, wign := w, errcode := .none }

/-- `STATUS` after an error (R128). -/
def Status.ofError (w : Bool) (code : ErrCode) : Status :=
  { busy := false, done := true, err := true, verdict := false, vvalid := false, wign := w, errcode := code }

/-- `STATUS` after a testing command that ended with `o`. -/
def Status.ofTest (w : Bool) : Except ErrCode Bool → Status
  | .ok q => Status.ofVerdict w q
  | .error code => Status.ofError w code

/-- A command has been accepted and no micro-step taken (R123). -/
def Started (s : State) : Prop :=
  s.phase = .start ∧ s.status = Status.running s.status.wign ∧ s.rngReq = false

/-- The source does not answer (R187). -/
def RngPins.silent (p : RngPins) : Prop := p.valid = false ∧ p.fail = false

/-- The source answers, with a word or with a failure (R186). -/
def RngPins.answers (p : RngPins) : Prop := p.valid = true ∨ p.fail = true

/-- The next event resets the block: `rst`, or a write of `CTRL` with bit 1 set (R270). -/
def resetsNext (s : State) : Prop :=
  (∃ rest, s.events = .rst :: rest) ∨ ∃ v rest, s.events = .write ctrlIdx v :: rest ∧ v.getLsbD 1 = true

/-- `W`, the width of the big registers (R6). -/
def State.W (s : State) : Nat := 32 * s.nw

/-- A legal width (R6). -/
def State.WidthOk (s : State) : Prop := 2 ≤ s.nw ∧ s.nw ≤ 128

/-- The transition graph: the phase after a micro-step of `i` (R122). A commit goes to `IDLE`; a wait stays. -/
def graphNext (i : Instr) (s : State) : Phase :=
  match s.phase with
  | .idle => .idle
  | .start =>
    match i with
    | .powmod => if s.M = 0 then .idle else .pmLoop
    | .fac2 => if s.A = 0 then .idle else .f2Loop
    | .tdiv100 => .tdLoop
    | .tdiv1000 => .tdLoop
    | .mr _ => .mrStart
    | .mrd => .mrStart
    | .check100 _ => .tdLoop
    | .check1000 _ => .tdLoop
  | .pmLoop => if s.work.e ≠ 0 then .pmLoop else if s.ret = .cmd then .idle else .mrCheckX
  | .f2Loop =>
    if s.work.fd % 2 = 0 then .f2Loop
    else if s.ret = .cmd then .idle
    else if i = .mrd then .mrdBound else .mrSeed
  | .tdLoop =>
    if s.work.k = (cmdFields i).klim then (if (cmdFields i).op = 0x03 then .idle else .mrStart)
    else if s.work.nn % prime s.work.k = 0 ∧ s.work.nn ≠ prime s.work.k then .idle
    else .tdLoop
  | .mrStart => if s.work.nn ≤ (if i = .mrd then 3 else 4) then .idle else .f2Loop
  | .mrSeed =>
    match s.rng with
    | [] => .mrSeed
    | p :: _ => if p.fail then .idle else if p.valid then .mrRound else .mrSeed
  | .mrdBound => .mrRound
  | .mrRound =>
    if i = .mrd then (if s.work.wb < s.work.w then .idle else .pmLoop)
    else if s.work.i = 0 then .idle else .pmLoop
  | .mrCheckX => if s.work.x = 1 ∨ s.work.x = s.work.nn - 1 then .mrRound else .mrSq
  | .mrSq =>
    if s.work.j = 0 then .idle
    else if s.work.x * s.work.x % s.work.nn = s.work.nn - 1 then .mrRound else .mrSq

/-- The range invariant of every register (R44), `S` and `LASTCMD` being words by their type. -/
def RangeOk (s : State) : Prop :=
  s.A < 2 ^ s.W ∧ s.E < 2 ^ s.W ∧ s.M < 2 ^ s.W ∧ s.R < 2 ^ s.W ∧
  s.work.nn < 2 ^ s.W ∧ s.work.r < 2 ^ s.W ∧ s.work.b < 2 ^ s.W ∧ s.work.e < 2 ^ s.W ∧ s.work.m < 2 ^ s.W ∧
  s.work.fd < 2 ^ s.W ∧ s.work.d < 2 ^ s.W ∧ s.work.w < 2 ^ s.W ∧ s.work.x < 2 ^ s.W ∧ s.work.wb < 2 ^ s.W ∧
  s.work.fs < 2 ^ 32 ∧ s.work.s < 2 ^ 32 ∧ s.work.j < 2 ^ 32 ∧ s.work.i < 2 ^ 16 ∧ s.work.k ≤ 1000

/-- The invariants among the fields of `STATUS` (R28). -/
def StatusOk (t : Status) : Prop :=
  (t.err = true ↔ t.errcode ≠ .none) ∧ (t.vvalid = true → t.err = false) ∧ (t.verdict = true → t.vvalid = true) ∧
  (t.busy = true → t.done = false ∧ t.err = false ∧ t.vvalid = false)

/-- `phase = IDLE` exactly when `BUSY = 0` (R36), and `rng_req` is 1 exactly while `phase = MR_SEED` (R40). -/
def SequencerOk (s : State) : Prop :=
  (s.phase = .idle ↔ s.status.busy = false) ∧ (s.rngReq = true ↔ s.phase = .mrSeed)

/-- The command runs the witness loop and its operand has passed the precondition (R183). -/
def TestOk (f : CmdFields) (s : State) : Prop :=
  (f.op = 0x04 ∨ f.op = 0x05 ∨ f.op = 0x06) ∧ f.mode.limit < s.work.nn

/-- The factorisation `nn - 1 = 2^s * d`, `d` odd, stands in `d` and `s` (R148). -/
def FactoredOk (f : CmdFields) (s : State) : Prop :=
  TestOk f s ∧ s.work.d % 2 = 1 ∧ s.work.d * 2 ^ s.work.s = s.work.nn - 1

/-- A round is running: MRD's witness is within its bound (R190). -/
def RoundOk (f : CmdFields) (s : State) : Prop :=
  FactoredOk f s ∧ (f.mode = .det → s.work.w ≤ s.work.wb ∧ s.work.wb ≤ s.work.nn - 1)

/-- What holds in each phase of the command with fields `f`. -/
def PhaseOk (f : CmdFields) (s : State) : Prop :=
  match s.phase with
  | .idle => True
  | .start => True
  | .pmLoop =>
    s.work.m ≠ 0 ∧
    match s.ret with
    | .cmd => f.op = 0x01
    | .mr => RoundOk f s ∧ s.work.m = s.work.nn
  | .f2Loop =>
    s.work.fd ≠ 0 ∧
    match s.ret with
    | .cmd => f.op = 0x02 ∧ s.work.fd * 2 ^ s.work.fs = s.A
    | .mr => TestOk f s ∧ s.work.fd * 2 ^ s.work.fs = s.work.nn - 1
  | .tdLoop => (f.op = 0x03 ∨ f.op = 0x06) ∧ s.work.k ≤ f.klim
  | .mrStart => f.op = 0x04 ∨ f.op = 0x05 ∨ f.op = 0x06
  | .mrSeed => FactoredOk f s ∧ f.mode = .prob
  | .mrdBound => FactoredOk f s ∧ f.mode = .det
  | .mrRound => FactoredOk f s ∧ (f.mode = .det → s.work.w ≤ s.work.nn ∧ s.work.wb ≤ s.work.nn - 1)
  | .mrCheckX => RoundOk f s
  | .mrSq => RoundOk f s ∧ s.work.j ≤ s.work.s

/-- While busy `LASTCMD` is a command (R124) and the phase is one of that command's, with what holds in it. -/
def CommandOk (s : State) : Prop :=
  s.status.busy = true → ∃ i, decode s.lastcmd = .ok i ∧ PhaseOk (cmdFields i) s

/-- The invariant: it holds after reset of a block of any legal width and every step keeps it. -/
def Inv (s : State) : Prop :=
  s.WidthOk ∧ RangeOk s ∧ StatusOk s.status ∧ SequencerOk s ∧ CommandOk s

/-- The next step ends in a next state: the machine neither faults nor refuses. -/
def StepsOn (s : State) : Prop := ∃ t, step s = .next t

end Sys2Proof.Machine
end

