-- ==== Sys2Proof/Certificates/Slice0/Obligations.lean ====
section
/-! DEFINITION. The statements for the provers, from the numbered rules of spec/: encoding, the register port, acceptance and
reset, the step, the micro-step rules, the commands as a whole, and the invariants of the machine. -/

open Sys2Proof Sys2Proof.Machine

/-! ### Encoding -/

/-- Every well-formed command survives encoding and decoding, at every accuracy (R96, R99). -/
def Obligations.DecodeOfEncode : Prop :=
  ∀ i : Instr, i.wellFormed = true → decode (encode i) = .ok i

/-- A word that decodes is the word of the command it decodes to, and that command is well formed (R96, R98, R99). -/
def Obligations.EncodeOfDecode : Prop :=
  ∀ (cw : Word) (i : Instr), decode cw = .ok i → i.wellFormed = true ∧ encode i = cw

/-- R95: `legal` is the table of R96, is the list of fields the rule spells out, and holds of 196613 words. -/
def Obligations.LegalWords : Prop :=
  (∀ cw : Word, legal cw = true ↔ ∃ row ∈ opcodeTable, rowMatches cw row = true) ∧
  (∀ cw : Word, legal cw = true ↔
    cw.toNat / 512 % 128 = 0 ∧
    ((cw.toNat % 256 ∈ [0x01, 0x02, 0x05] ∧ cw.toNat / 256 % 2 = 0 ∧ cw.toNat / 65536 = 0) ∨
     (cw.toNat % 256 = 0x03 ∧ cw.toNat / 65536 = 0) ∨
     (cw.toNat % 256 = 0x04 ∧ cw.toNat / 256 % 2 = 0) ∨
     cw.toNat % 256 = 0x06)) ∧
  Set.ncard {cw : Word | legal cw = true} = 196613

/-- Each row of the opcode table selects its own command (R96): a word matches the row exactly when it decodes to the row's
command, with the accuracy in bits 31:16 where the row leaves them free. -/
def Obligations.TableRowsSelectCommands : Prop :=
  ∀ cw : Word,
    (cw &&& 0xFFFFFFFF = 0x00000001 ↔ decode cw = .ok .powmod) ∧
    (cw &&& 0xFFFFFFFF = 0x00000002 ↔ decode cw = .ok .fac2) ∧
    (cw &&& 0xFFFFFFFF = 0x00000003 ↔ decode cw = .ok .tdiv100) ∧
    (cw &&& 0xFFFFFFFF = 0x00000103 ↔ decode cw = .ok .tdiv1000) ∧
    (cw &&& 0x0000FFFF = 0x00000004 ↔ decode cw = .ok (.mr (cw.toNat / 65536))) ∧
    (cw &&& 0xFFFFFFFF = 0x00000005 ↔ decode cw = .ok .mrd) ∧
    (cw &&& 0x0000FFFF = 0x00000006 ↔ decode cw = .ok (.check100 (cw.toNat / 65536))) ∧
    (cw &&& 0x0000FFFF = 0x00000106 ↔ decode cw = .ok (.check1000 (cw.toNat / 65536)))

/-- R91: the fields of a command are the bits of its word, the reserved ones zero. -/
def Obligations.FieldsOfCommandWord : Prop :=
  ∀ (cw : Word) (i : Instr), decode cw = .ok i →
    (cmdFields i).op = cw.toNat % 256 ∧ ((cmdFields i).tsel = true ↔ cw.toNat / 256 % 2 = 1) ∧
    cw.toNat / 512 % 128 = 0 ∧ (cmdFields i).acc = cw.toNat / 65536

/-- A few words of the spec's table, written out bit by bit, decode to their commands, and two neighbours do not. -/
def Obligations.WrittenWordsDecode : Prop :=
  decode 0b00000000000000000000000000000001 = .ok .powmod ∧
  decode 0b00000000000000000000000000000010 = .ok .fac2 ∧
  decode 0b00000000000000000000000100000011 = .ok .tdiv1000 ∧
  decode 0b00000000000001010000000000000100 = .ok (.mr 5) ∧
  decode 0b00000000000000000000000000000101 = .ok .mrd ∧
  decode 0b11111111111111110000000100000110 = .ok (.check1000 65535) ∧
  decode 0b00000000000000000000000000000000 = .error .opcode ∧
  decode 0b00000000000000000000000100000001 = .error .table

/-! ### The register port -/

/-- R62: a host read returns the word at its index as the state stands and changes nothing of the block. -/
def Obligations.HostReadChangesNothing : Prop :=
  ∀ (s : State) (idx : PortIdx) (rest : List Event), s.events = .read idx :: rest →
    ∃ t, step s = .next t ∧ t.rdata = memRead s idx ∧ t = { s with events := rest, rdata := t.rdata } ∧
      ∀ idx', memRead t idx' = memRead s idx'

/-- R64 for reads: what every index of the port holds, for every legal width; `STATUS` as its word, whose bits
`StatusWordBits` gives. -/
def Obligations.PortMapReads : Prop :=
  ∀ s : State, s.WidthOk →
    memRead s 0x000 = 0x4D454531 ∧ (memRead s 0x001).toNat = s.nw ∧
    memRead s 0x002 = (if s.ie then 1 else 0) ∧ memRead s 0x003 = s.status.word ∧
    memRead s 0x004 = 0 ∧ memRead s 0x005 = s.lastcmd ∧ memRead s 0x006 = s.S ∧
    (∀ idx : PortIdx, 0x007 ≤ idx.toNat → idx.toNat < 0x080 → memRead s idx = 0) ∧
    (∀ t < s.nw,
      (memRead s (BitVec.ofNat 10 (0x080 + t))).toNat = s.A / 2 ^ (32 * t) % 2 ^ 32 ∧
      (memRead s (BitVec.ofNat 10 (0x100 + t))).toNat = s.E / 2 ^ (32 * t) % 2 ^ 32 ∧
      (memRead s (BitVec.ofNat 10 (0x180 + t))).toNat = s.M / 2 ^ (32 * t) % 2 ^ 32 ∧
      (memRead s (BitVec.ofNat 10 (0x200 + t))).toNat = s.R / 2 ^ (32 * t) % 2 ^ 32) ∧
    (∀ t, s.nw ≤ t → t < 128 →
      memRead s (BitVec.ofNat 10 (0x080 + t)) = 0 ∧ memRead s (BitVec.ofNat 10 (0x100 + t)) = 0 ∧
      memRead s (BitVec.ofNat 10 (0x180 + t)) = 0) ∧
    (∀ idx : PortIdx, 0x200 + s.nw ≤ idx.toNat → memRead s idx = 0)

/-- The bits of `STATUS` as the host reads them (R28): each field in its place, the reserved bits 0. -/
def Obligations.StatusWordBits : Prop :=
  ∀ s : State,
    (memRead s 0x003).getLsbD 0 = s.status.busy ∧ (memRead s 0x003).getLsbD 1 = s.status.done ∧
    (memRead s 0x003).getLsbD 2 = s.status.err ∧ (memRead s 0x003).getLsbD 3 = s.status.verdict ∧
    (memRead s 0x003).getLsbD 4 = s.status.vvalid ∧ (memRead s 0x003).getLsbD 5 = s.status.wign ∧
    (memRead s 0x003).toNat / 64 % 4 = 0 ∧
    (memRead s 0x003).toNat / 256 =
      (match s.status.errcode with | .none => 0 | .invalidInput => 1 | .sourceUnavailable => 2 | .illegalCommand => 3)

/-- R221: a write of word `t` of an operand window, `t < NW`, is dropped with `WIGN` while busy; while idle that word becomes
`v`, every other index reads as before, and nothing but that register changes. -/
def Obligations.OperandWrite : Prop :=
  ∀ (s : State) (X : BigReg) (t : Nat) (v : Word) (rest : List Event), s.WidthOk → t < s.nw →
    s.events = .write (BitVec.ofNat 10 (X.base + t)) v :: rest →
    (s.status.busy = true →
      step s = .next { s with events := rest, status := { s.status with wign := true } }) ∧
    (s.status.busy = false →
      ∃ u, step s = .next u ∧ memRead u (BitVec.ofNat 10 (X.base + t)) = v ∧
        (∀ idx, idx ≠ BitVec.ofNat 10 (X.base + t) → memRead u idx = memRead s idx) ∧
        u = (match X with
          | .a => { s with events := rest, A := u.A }
          | .e => { s with events := rest, E := u.E }
          | .m => { s with events := rest, M := u.M }))

/-- R65: a write to a read-only or reserved index changes nothing and does not set `WIGN`, busy or idle; a reserved index
reads 0; the reserved bits of `CTRL` and `STATUS` read 0 and ignore writes. Indices with their own effect are `CTRL`, `STATUS`,
`CMD` and the words below `NW` of the operand windows. -/
def Obligations.ReadOnlyAndReservedWrite : Prop :=
  (∀ (s : State) (idx : PortIdx) (v : Word) (rest : List Event), s.WidthOk → s.events = .write idx v :: rest →
    idx.toNat ≠ 0x002 → idx.toNat ≠ 0x003 → idx.toNat ≠ 0x004 →
    ¬ (0x080 ≤ idx.toNat ∧ idx.toNat < 0x080 + s.nw) → ¬ (0x100 ≤ idx.toNat ∧ idx.toNat < 0x100 + s.nw) →
    ¬ (0x180 ≤ idx.toNat ∧ idx.toNat < 0x180 + s.nw) →
    step s = .next { s with events := rest } ∧
    (0x007 ≤ idx.toNat → ¬ (0x200 ≤ idx.toNat ∧ idx.toNat < 0x200 + s.nw) → memRead s idx = 0)) ∧
  ∀ (s : State) (v v' : Word),
    (memRead s 0x002).toNat / 2 = 0 ∧ (memRead s 0x003).toNat / 64 % 4 = 0 ∧ (memRead s 0x003).toNat / 4096 = 0 ∧
    (v.getLsbD 0 = v'.getLsbD 0 → v.getLsbD 1 = v'.getLsbD 1 → memWrite s 0x002 v = memWrite s 0x002 v') ∧
    (v.getLsbD 1 = v'.getLsbD 1 → v.getLsbD 5 = v'.getLsbD 5 → memWrite s 0x003 v = memWrite s 0x003 v')

/-- R66: while busy, a write to an operand window or to `CMD` only sets `WIGN`; a write to `CTRL` or `STATUS` does to every
field what the same write does when idle; a write to a read-only or reserved index does nothing. -/
def Obligations.WritesWhileBusy : Prop :=
  ∀ (s : State) (idx : PortIdx) (v : Word) (rest : List Event), s.WidthOk → s.status.busy = true →
    s.events = .write idx v :: rest →
    ((idx.toNat = 0x004 ∨ (0x080 ≤ idx.toNat ∧ idx.toNat < 0x080 + s.nw) ∨
        (0x100 ≤ idx.toNat ∧ idx.toNat < 0x100 + s.nw) ∨ (0x180 ≤ idx.toNat ∧ idx.toNat < 0x180 + s.nw)) →
      step s = .next { s with events := rest, status := { s.status with wign := true } }) ∧
    (idx.toNat = 0x002 → v.getLsbD 1 = false → step s = .next { s with events := rest, ie := v.getLsbD 0 }) ∧
    (idx.toNat = 0x002 → v.getLsbD 1 = true →
      step s = step { s with status := { s.status with busy := false }, phase := .idle, rngReq := false }) ∧
    (idx.toNat = 0x003 →
      step s = .next { s with
        events := rest,
        status := { s.status with
          done := if v.getLsbD 1 then false else s.status.done,
          wign := if v.getLsbD 5 then false else s.status.wign } }) ∧
    (idx.toNat ∈ [0x000, 0x001, 0x005, 0x006] ∨ (0x007 ≤ idx.toNat ∧ idx.toNat < 0x080) ∨
        (0x080 + s.nw ≤ idx.toNat ∧ idx.toNat < 0x100) ∨ (0x100 + s.nw ≤ idx.toNat ∧ idx.toNat < 0x180) ∨
        (0x180 + s.nw ≤ idx.toNat ∧ idx.toNat < 0x200) ∨ 0x200 ≤ idx.toNat →
      step s = .next { s with events := rest })

/-- R223 to R225: a write of `CTRL` without `SRST` sets `IE` from bit 0 and nothing else; a write of `STATUS` clears `DONE` by
bit 1 and `WIGN` by bit 5 and nothing else, busy or idle. -/
def Obligations.ControlAndStatusWrites : Prop :=
  ∀ (s : State) (v : Word) (rest : List Event),
    (s.events = .write 0x002 v :: rest → v.getLsbD 1 = false →
      step s = .next { s with events := rest, ie := v.getLsbD 0 }) ∧
    (s.events = .write 0x003 v :: rest →
      step s = .next { s with
        events := rest,
        status := { s.status with
          done := if v.getLsbD 1 then false else s.status.done,
          wign := if v.getLsbD 5 then false else s.status.wign } })

/-- `LDBIG` loads a register and `RDBIG` reads one (spec/45_host_operations.md section 3): while idle the `NW` writes give the
register its value and change nothing else, and the words at `0x200 + t` add up to `R`. -/
def Obligations.LoadAndReadBigRegisters : Prop :=
  ∀ (s : State) (X : BigReg) (v : Nat) (rest : List Event), s.WidthOk → s.status.busy = false → v < 2 ^ s.W →
    s.R < 2 ^ s.W → (s.A < 2 ^ s.W ∧ s.E < 2 ^ s.W ∧ s.M < 2 ^ s.W) → s.events = ldbig s.nw X v ++ rest →
    core.run s.nw s = .next (match X with
      | .a => { s with events := rest, A := v }
      | .e => { s with events := rest, E := v }
      | .m => { s with events := rest, M := v }) ∧
    rdbigValue s = s.R

/-! ### Acceptance, errors, reset, interrupt -/

/-- R123: the acceptance of a word written to `CMD`, in its three cases. -/
def Obligations.AcceptanceOfCommand : Prop :=
  ∀ (s : State) (cw : Word) (rest : List Event), s.events = .write 0x004 cw :: rest →
    (s.status.busy = true →
      step s = .next { s with events := rest, status := { s.status with wign := true } }) ∧
    (s.status.busy = false → legal cw = true →
      step s = .next { s with
        events := rest, lastcmd := cw, status := Status.running s.status.wign, phase := .start }) ∧
    (s.status.busy = false → legal cw = false →
      step s = .next { s with
        events := rest, lastcmd := cw, status := Status.ofError s.status.wign .illegalCommand, phase := .idle,
        rngReq := false })

/-- R97: which words are illegal, and that writing one while idle starts nothing and raises `IllegalCommand` at once. -/
def Obligations.IllegalWords : Prop :=
  ∀ cw : Word,
    (legal cw = false ↔
      cw.toNat % 256 = 0 ∨ 7 ≤ cw.toNat % 256 ∨ cw.toNat / 512 % 128 ≠ 0 ∨
      (cw.toNat / 256 % 2 = 1 ∧ cw.toNat % 256 ∈ [0x01, 0x02, 0x04, 0x05]) ∨
      (cw.toNat / 65536 ≠ 0 ∧ cw.toNat % 256 ∈ [0x01, 0x02, 0x03, 0x05])) ∧
    ∀ (s : State) (rest : List Event), legal cw = false → s.status.busy = false → s.events = .write 0x004 cw :: rest →
      ∃ t, step s = .next t ∧ t.status.busy = false ∧ t.status.done = true ∧ t.status.err = true ∧
        t.status.errcode = .illegalCommand ∧ t.lastcmd = cw ∧ t.phase = .idle ∧
        t.A = s.A ∧ t.E = s.E ∧ t.M = s.M ∧ t.R = s.R ∧ t.S = s.S ∧ t.work = s.work

/-- R270 and R226: the `rst` input and a write of `CTRL` with bit 1 set have the same effect from every state, busy or idle:
every register of R43 at its reset value. Nothing is said of the working registers, which R43 leaves unspecified. -/
def Obligations.ResetLeaves : Prop :=
  ∀ (s : State) (rest : List Event) (v : Word),
    (s.events = .rst :: rest ∨ (s.events = .write 0x002 v :: rest ∧ v.getLsbD 1 = true)) →
    ∃ t, step s = .next t ∧ t.A = 0 ∧ t.E = 0 ∧ t.M = 0 ∧ t.R = 0 ∧ t.S = 0 ∧ t.ie = false ∧
      t.status = { busy := false, done := false, err := false, verdict := false, vvalid := false, wign := false,
                   errcode := .none } ∧
      t.lastcmd = 0 ∧ t.phase = .idle ∧ t.ret = .cmd ∧ t.rngReq = false ∧ t.irq = false ∧ t.nw = s.nw ∧
      memRead t 0x000 = 0x4D454531 ∧ memRead t 0x001 = memRead s 0x001

/-- After a reset no index of the port shows anything of what was there before: all read 0 but `ID` and `PARAM`
(spec/10_state.md section 8). -/
def Obligations.ResetClearsThePort : Prop :=
  ∀ s t : State, resetsNext s → step s = .next t →
    ∀ idx : PortIdx, idx ≠ 0x000 → idx ≠ 0x001 → memRead t idx = 0

/-- R41 and R246, over steps: `irq` is `IE and DONE`; it rises at the commit of a command exactly if `IE` is 1, and falls when
the host acknowledges, has a legal command accepted, clears `IE`, or resets the block. -/
def Obligations.InterruptLine : Prop :=
  (∀ s : State, s.irq = true ↔ s.ie = true ∧ s.status.done = true) ∧
  (∀ (i : Instr) (s t : State), s.status.busy = true → exec i s = .next t → t.status.busy = false → t.irq = s.ie) ∧
  (∀ (s : State) (v : Word) (rest : List Event),
    (s.events = .write 0x003 v :: rest ∧ v.getLsbD 1 = true) ∨
    (s.events = .write 0x004 v :: rest ∧ s.status.busy = false ∧ legal v = true) ∨
    (s.events = .write 0x002 v :: rest ∧ (v.getLsbD 0 = false ∨ v.getLsbD 1 = true)) ∨
    s.events = .rst :: rest →
    ∃ t, step s = .next t ∧ t.irq = false)

/-! ### The step -/

/-- A step of a busy engine whose `LASTCMD` decodes to `i` is one micro-step of `i` (R30, R121), and what a poll of `WAIT`
does (R228). That the engine moves when no event or its own is listed is the model's choice (log 4), and so is the one
micro-step after a poll that reads `DONE` 0 (log 7): the spec fixes neither. A poll that reads `DONE` 1 ends the wait, busy or
idle; a poll of an idle block with `DONE` 0 leaves the host polling. -/
def Obligations.StepRunsDecodedCommand : Prop :=
  ∀ (s : State) (rest : List Event),
    (∀ i : Instr, s.status.busy = true → decode s.lastcmd = .ok i →
      (s.events = [] → step s = exec i s) ∧
      (s.events = .engine :: rest → step s = exec i { s with events := rest }) ∧
      (s.events = .wait :: rest → s.status.done = false → step s = exec i { s with rdata := memRead s 0x003 })) ∧
    (s.events = .wait :: rest → s.status.done = true →
      step s = .next { s with rdata := memRead s 0x003, events := rest }) ∧
    (s.events = .wait :: rest → s.status.busy = false → s.status.done = false →
      step s = .next { s with rdata := memRead s 0x003 })

/-- A word placed by `withFetchWord` is run by the very next step, as the first micro-step of its command, after a reset or in
any other state (the model's way to place a program, log 12). -/
def Obligations.PlacedWordRunsNext : Prop :=
  ∀ (s : State) (w : Nat) (i : Instr), decodeTableWord 32 w = some i →
    step (s.withFetchWord 32 w) = exec i { s with
      lastcmd := BitVec.ofNat 32 w, status := Status.running s.status.wign, phase := .start }

/-- While idle the engine takes no step (R121): nothing changes but the event taken from the list. The list, and the move of the
engine when it is empty, are the model's choice (log 4). -/
def Obligations.IdleEngineRests : Prop :=
  ∀ (s : State) (rest : List Event), s.status.busy = false →
    (s.events = [] → step s = .next s) ∧ (s.events = .engine :: rest → step s = .next { s with events := rest })

/-- Only the acceptance of a legal word starts the engine (R122). -/
def Obligations.OnlyAcceptanceStartsTheEngine : Prop :=
  ∀ s t : State, s.status.busy = false → step s = .next t → t.status.busy = true →
    ∃ cw rest, s.events = .write 0x004 cw :: rest ∧ legal cw = true ∧ t.lastcmd = cw ∧ t.phase = .start

/-- While busy, whatever the host does short of a reset, a step changes no operand, no command word and no width (R26, R66);
`R` and `S` change only in a step that ends the command (R68). -/
def Obligations.BusyStepKeepsOperands : Prop :=
  ∀ s t : State, s.status.busy = true → ¬ resetsNext s → step s = .next t →
    t.nw = s.nw ∧ t.A = s.A ∧ t.E = s.E ∧ t.M = s.M ∧ t.lastcmd = s.lastcmd ∧
    (t.status.busy = true → t.R = s.R ∧ t.S = s.S)

/-! ### The micro-step rules -/

/-- R141. -/
def Obligations.PowmodStart : Prop :=
  ∀ s : State, s.phase = .start →
    (s.M = 0 → exec .powmod s = .next { s with
      status := { s.status with busy := false, done := true, err := true, errcode := .invalidInput }, phase := .idle,
      rngReq := false }) ∧
    (s.M ≠ 0 → exec .powmod s = .next { s with
      work := { s.work with r := 1, b := s.A, e := s.E, m := s.M }, ret := .cmd, phase := .pmLoop })

/-- R146. -/
def Obligations.FactorisationStart : Prop :=
  ∀ s : State, s.phase = .start →
    (s.A = 0 → exec .fac2 s = .next { s with
      status := { s.status with busy := false, done := true, err := true, errcode := .invalidInput }, phase := .idle,
      rngReq := false }) ∧
    (s.A ≠ 0 → exec .fac2 s = .next { s with
      work := { s.work with fd := s.A, fs := 0 }, ret := .cmd, phase := .f2Loop })

/-- R161 and R182: the START actions of the testing commands, which check nothing. -/
def Obligations.TestStart : Prop :=
  ∀ (s : State) (acc : Nat), s.phase = .start →
    (∀ i ∈ [Instr.tdiv100, .tdiv1000, .check100 acc, .check1000 acc],
      exec i s = .next { s with work := { s.work with nn := s.A, k := 0 }, phase := .tdLoop }) ∧
    (∀ i ∈ [Instr.mr acc, .mrd], exec i s = .next { s with work := { s.work with nn := s.A }, phase := .mrStart })

/-- R142 and R143: a pass of square-and-multiply and the exit, in POWMOD and in the witness loop. In states of the invariant
the modulus is not 0 whenever this phase runs. -/
def Obligations.ExponentiationMicroStep : Prop :=
  ∀ (s : State) (acc : Nat), s.phase = .pmLoop →
    (Inv s → s.work.m ≠ 0) ∧
    ∀ i ∈ [Instr.powmod, .mr acc, .mrd, .check100 acc, .check1000 acc],
    (s.work.e ≠ 0 → s.work.e % 2 = 1 → exec i s = .next { s with
      work := { s.work with
        r := s.work.r * s.work.b % s.work.m, b := s.work.b * s.work.b % s.work.m, e := s.work.e / 2 } }) ∧
    (s.work.e ≠ 0 → s.work.e % 2 = 0 → exec i s = .next { s with
      work := { s.work with b := s.work.b * s.work.b % s.work.m, e := s.work.e / 2 } }) ∧
    (s.work.e = 0 → s.ret = .cmd → exec i s = .next { s with
      R := s.work.r, status := { s.status with busy := false, done := true }, phase := .idle }) ∧
    (s.work.e = 0 → s.ret = .mr → exec i s = .next { s with
      work := { s.work with x := s.work.r }, phase := .mrCheckX })

/-- R147 and R148: a shift of the factorisation and the exit, in FAC2 and in the witness loop. In states of the invariant `fd`
is not 0 whenever this phase runs, and at most `W - 1` shifts make it odd. -/
def Obligations.FactorisationMicroStep : Prop :=
  ∀ (s : State) (acc : Nat), s.phase = .f2Loop →
    (Inv s → s.work.fd ≠ 0 ∧ ∃ n ≤ s.W - 1, s.work.fd / 2 ^ n % 2 = 1) ∧
    (∀ i ∈ [Instr.fac2, .mr acc, .mrd, .check100 acc, .check1000 acc],
      (s.work.fd % 2 = 0 → exec i s = .next { s with
        work := { s.work with fd := s.work.fd / 2, fs := s.work.fs + 1 } }) ∧
      (s.work.fd % 2 = 1 → s.ret = .cmd → exec i s = .next { s with
        R := s.work.fd, S := BitVec.ofNat 32 s.work.fs, status := { s.status with busy := false, done := true },
        phase := .idle })) ∧
    (s.work.fd % 2 = 1 → s.ret = .mr → ∀ i ∈ [Instr.mr acc, .check100 acc, .check1000 acc], exec i s = .next { s with
      work := { s.work with d := s.work.fd, s := s.work.fs }, phase := .mrSeed, rngReq := true }) ∧
    (s.work.fd % 2 = 1 → s.ret = .mr → exec .mrd s = .next { s with
      work := { s.work with d := s.work.fd, s := s.work.fs }, phase := .mrdBound })

/-- R162: one table entry, or the end of the scan, under each of the four commands that filter. -/
def Obligations.TrialDivisionMicroStep : Prop :=
  ∀ (s : State) (acc : Nat), s.phase = .tdLoop →
    ∀ p ∈ [(Instr.tdiv100, 100), (.tdiv1000, 1000), (.check100 acc, 100), (.check1000 acc, 1000)],
    (s.work.k = p.2 → (p.1 = .tdiv100 ∨ p.1 = .tdiv1000) → exec p.1 s = .next { s with
      status := { s.status with busy := false, done := true, verdict := true, vvalid := true }, phase := .idle }) ∧
    (s.work.k = p.2 → (p.1 = .check100 acc ∨ p.1 = .check1000 acc) → exec p.1 s = .next { s with phase := .mrStart }) ∧
    (s.work.k ≠ p.2 → s.work.nn % prime s.work.k = 0 ∧ s.work.nn ≠ prime s.work.k → exec p.1 s = .next { s with
      status := { s.status with busy := false, done := true, verdict := false, vvalid := true }, phase := .idle }) ∧
    (s.work.k ≠ p.2 → ¬ (s.work.nn % prime s.work.k = 0 ∧ s.work.nn ≠ prime s.work.k) → exec p.1 s = .next { s with
      work := { s.work with k := s.work.k + 1 } })

/-- R183: the precondition of the witness loop, `nn > 4` for MR and CHECK, `nn > 3` for MRD. -/
def Obligations.WitnessLoopStart : Prop :=
  ∀ (s : State) (acc : Nat), s.phase = .mrStart →
    ∀ p ∈ [(Instr.mr acc, 4), (.mrd, 3), (.check100 acc, 4), (.check1000 acc, 4)],
    (s.work.nn ≤ p.2 → exec p.1 s = .next { s with
      status := { s.status with busy := false, done := true, err := true, errcode := .invalidInput }, phase := .idle,
      rngReq := false }) ∧
    (p.2 < s.work.nn → exec p.1 s = .next { s with
      work := { s.work with fd := s.work.nn - 1, fs := 0 }, ret := .mr, phase := .f2Loop })

/-- The first two clauses are R186: the seed, and the failure, which wins when both are driven. The last two are the model's
choice (log 5): the source's answers are a list, and where R187 has no enabled step while the source is silent, a silent entry,
and the empty list, are a next state in which nothing of the block changes. -/
def Obligations.SeedMicroStep : Prop :=
  ∀ (s : State) (acc : Nat) (p : RngPins) (rest : List RngPins), s.phase = .mrSeed →
    ∀ i ∈ [Instr.mr acc, .check100 acc, .check1000 acc],
    (s.rng = p :: rest → p.fail = true → exec i s = .next { s with
      rng := rest, phase := .idle, rngReq := false,
      status := { s.status with busy := false, done := true, err := true, errcode := .sourceUnavailable } }) ∧
    (s.rng = p :: rest → p.fail = false → p.valid = true → exec i s = .next { s with
      rng := rest, work := { s.work with w := p.word.toNat, i := acc }, rngReq := false, phase := .mrRound }) ∧
    (s.rng = p :: rest → p.silent → exec i s = .next { s with rng := rest }) ∧
    (s.rng = [] → exec i s = .next s)

/-- R188: the bound is `min(nn - 1, LNB(nn))`, for whatever function `LNB` is. -/
def Obligations.WitnessBoundMicroStep : Prop :=
  ∀ s : State, s.phase = .mrdBound →
    exec .mrd s = .next { s with
      work := { s.work with wb := min (s.work.nn - 1) (Config.lnb s.work.nn), w := 2 }, phase := .mrRound }

/-- R189 and R190: the end of the witness loop or the start of a round. In states of the invariant the modulus `nn - 4` of
the witness update is at least 1. -/
def Obligations.RoundMicroStep : Prop :=
  ∀ (s : State) (acc : Nat), s.phase = .mrRound →
    (∀ i ∈ [Instr.mr acc, .check100 acc, .check1000 acc],
      (Inv s → decode s.lastcmd = .ok i → 1 ≤ s.work.nn - 4) ∧
      (s.work.i = 0 → exec i s = .next { s with
        status := { s.status with busy := false, done := true, verdict := true, vvalid := true }, phase := .idle }) ∧
      (s.work.i ≠ 0 → exec i s = .next { s with
        work := { s.work with
          i := s.work.i - 1, w := s.work.w * 48271 % (s.work.nn - 4) + 2, r := 1,
          b := s.work.w * 48271 % (s.work.nn - 4) + 2, e := s.work.d, m := s.work.nn },
        ret := .mr, phase := .pmLoop })) ∧
    (s.work.wb < s.work.w → exec .mrd s = .next { s with
      status := { s.status with busy := false, done := true, verdict := true, vvalid := true }, phase := .idle }) ∧
    (s.work.w ≤ s.work.wb → exec .mrd s = .next { s with
      work := { s.work with r := 1, b := s.work.w, e := s.work.d, m := s.work.nn }, ret := .mr, phase := .pmLoop })

/-- R191: the first test of a round; only MRD advances the witness. -/
def Obligations.FirstTestMicroStep : Prop :=
  ∀ (s : State) (acc : Nat), s.phase = .mrCheckX →
    (s.work.x = 1 ∨ s.work.x = s.work.nn - 1 →
      (∀ i ∈ [Instr.mr acc, .check100 acc, .check1000 acc], exec i s = .next { s with phase := .mrRound }) ∧
      exec .mrd s = .next { s with work := { s.work with w := s.work.w + 1 }, phase := .mrRound }) ∧
    (s.work.x ≠ 1 ∧ s.work.x ≠ s.work.nn - 1 →
      ∀ i ∈ [Instr.mr acc, .mrd, .check100 acc, .check1000 acc], exec i s = .next { s with
        work := { s.work with j := if s.work.s = 0 then 0 else s.work.s - 1 }, phase := .mrSq })

/-- R192: one squaring, tested on the new `x`, or the failure of the round. -/
def Obligations.SquaringMicroStep : Prop :=
  ∀ (s : State) (acc : Nat), s.phase = .mrSq →
    (s.work.j = 0 → ∀ i ∈ [Instr.mr acc, .mrd, .check100 acc, .check1000 acc], exec i s = .next { s with
      status := { s.status with busy := false, done := true, verdict := false, vvalid := true }, phase := .idle }) ∧
    (s.work.j ≠ 0 → s.work.x * s.work.x % s.work.nn = s.work.nn - 1 →
      (∀ i ∈ [Instr.mr acc, .check100 acc, .check1000 acc], exec i s = .next { s with
        work := { s.work with x := s.work.x * s.work.x % s.work.nn, j := s.work.j - 1 }, phase := .mrRound }) ∧
      exec .mrd s = .next { s with
        work := { s.work with x := s.work.x * s.work.x % s.work.nn, j := s.work.j - 1, w := s.work.w + 1 },
        phase := .mrRound }) ∧
    (s.work.j ≠ 0 → s.work.x * s.work.x % s.work.nn ≠ s.work.nn - 1 →
      ∀ i ∈ [Instr.mr acc, .mrd, .check100 acc, .check1000 acc], exec i s = .next { s with
        work := { s.work with x := s.work.x * s.work.x % s.work.nn, j := s.work.j - 1 } })

/-- The transition graph of R122, over every command and every phase. Where the command reaches the phase the edge is the
table's. The table has no edge for a phase its command never reaches, nor for `IDLE` under `exec`: there the edge is the model's
choice (log 11, the rule of the phase whichever command runs). A silent `MR_SEED` has no step in R122: here it is a next state
in the same phase, the model's choice (log 5). -/
def Obligations.TransitionGraph : Prop :=
  ∀ (i : Instr) (s : State), ∃ t, exec i s = .next t ∧ t.phase = graphNext i s

/-- The frame of every micro-step of every command (R26, R127, R128, R130): operands, `CTRL`, `LASTCMD`, `WIGN` and the
environment's `rdata` and `events` never change; the other host-visible state changes only in a commit, and a commit is one
of four: a result, a verdict, `INVALID_INPUT`, `SOURCE_UNAVAILABLE`, the last three leaving `R` and `S`. -/
def Obligations.CommandsArePrecise : Prop :=
  ∀ (i : Instr) (s t : State), s.status = Status.running s.status.wign → exec i s = .next t →
    t.nw = s.nw ∧ t.A = s.A ∧ t.E = s.E ∧ t.M = s.M ∧ t.ie = s.ie ∧ t.lastcmd = s.lastcmd ∧ t.rdata = s.rdata ∧
    t.events = s.events ∧
    ((t.status = s.status ∧ t.R = s.R ∧ t.S = s.S ∧ ∀ idx, memRead t idx = memRead s idx) ∨
     (t.phase = .idle ∧ t.status = Status.ofResult s.status.wign) ∨
     (t.phase = .idle ∧ t.R = s.R ∧ t.S = s.S ∧ ∃ q, t.status = Status.ofVerdict s.status.wign q) ∨
     (t.phase = .idle ∧ t.R = s.R ∧ t.S = s.S ∧ t.rngReq = false ∧
       ∃ c ∈ [ErrCode.invalidInput, .sourceUnavailable], t.status = Status.ofError s.status.wign c))

/-- Which results a command may write (R24, R25, R33): in states of the invariant only POWMOD and FAC2 write `R`, only FAC2
writes `S`, and those two never set `VVALID`. -/
def Obligations.ResultRegistersOfEachCommand : Prop :=
  ∀ (i : Instr) (s t : State), Inv s → s.status.busy = true → decode s.lastcmd = .ok i → exec i s = .next t →
    (i ≠ .fac2 → t.S = s.S) ∧ (i ≠ .fac2 → i ≠ .powmod → t.R = s.R) ∧
    (i = .fac2 ∨ i = .powmod → t.status.vvalid = false ∧ t.status.verdict = false)

/-! ### The commands as a whole -/

/-- POWMOD, from START to its commit (spec/41_modular_arithmetic.md section 1): with `M = 0` one micro-step, `INVALID_INPUT`;
else `bitlen(E) + 2` micro-steps and `R` is `A^E mod M`, or 1 when `E = 0`. Nothing else host-visible changes. -/
def Obligations.PowmodComputes : Prop :=
  ∀ s : State, Started s →
    (s.M = 0 → ∃ wk rt, execN 1 .powmod s = .next { s with
      status := Status.ofError s.status.wign .invalidInput, phase := .idle, work := wk, ret := rt }) ∧
    (s.M ≠ 0 → ∃ wk rt, execN (Config.bitlen s.E + 2) .powmod s = .next { s with
      R := if s.E = 0 then 1 else s.A ^ s.E % s.M, status := Status.ofResult s.status.wign, phase := .idle,
      work := wk, ret := rt })

/-- FAC2, from START to its commit (spec/41_modular_arithmetic.md section 2): with `A = 0` one micro-step, `INVALID_INPUT`;
else `S + 2` micro-steps, `A = 2^S * R` and `R` odd. -/
def Obligations.FactorisationComputes : Prop :=
  ∀ s : State, Started s → s.WidthOk → s.A < 2 ^ s.W →
    (s.A = 0 → ∃ wk rt, execN 1 .fac2 s = .next { s with
      status := Status.ofError s.status.wign .invalidInput, phase := .idle, work := wk, ret := rt }) ∧
    (s.A ≠ 0 → ∃ (odd : Nat) (two : Word) (wk : Work) (rt : Ret),
      s.A = 2 ^ two.toNat * odd ∧ odd % 2 = 1 ∧
      execN (two.toNat + 2) .fac2 s = .next { s with
        R := odd, S := two, status := Status.ofResult s.status.wign, phase := .idle, work := wk, ret := rt })

/-- TDIV100 and TDIV1000, from START to the commit (spec/42_trial_division.md section 3), in at most `klim + 2` micro-steps: the
verdict is 0 exactly when some prime up to 541 (7919) divides `A` and is not `A`. No operand is an error. -/
def Obligations.TrialDivisionComputes : Prop :=
  ∀ s : State, Started s →
    ∀ p ∈ [(Instr.tdiv100, 100, 541), (.tdiv1000, 1000, 7919)],
    ∃ (n : Nat) (q : Bool) (wk : Work) (rt : Ret), n ≤ p.2.1 + 2 ∧
      execN n p.1 s = .next { s with
        status := Status.ofVerdict s.status.wign q, phase := .idle, work := wk, ret := rt } ∧
      (q = false ↔ ∃ x : Nat, x.Prime ∧ x ≤ p.2.2 ∧ x ∣ s.A ∧ s.A ≠ x)

/-- MR, from START to its commit (spec/43_miller_rabin.md section 2), the source silent for as long as it likes and then
answering: the outcome is `mr_f(A, acc, answer)`; with `A <= 4` the source is not asked. The bound on the micro-steps is that
of spec/70_reset_and_hazards.md section 3, plus the waiting: that each silent entry of the list of answers counts as one
micro-step is the model's choice (log 5). -/
def Obligations.ProbabilisticTestComputes : Prop :=
  ∀ (s : State) (acc : Nat), Started s → s.WidthOk → s.A < 2 ^ s.W →
    (s.A ≤ 4 → ∃ wk rt, execN 2 (.mr acc) s = .next { s with
      status := Status.ofError s.status.wign .invalidInput, phase := .idle, work := wk, ret := rt }) ∧
    (4 < s.A → ∀ (quiet : List RngPins) (p : RngPins) (rest : List RngPins),
      (∀ x ∈ quiet, x.silent) → p.answers → s.rng = quiet ++ p :: rest →
      ∃ n wk rt, n ≤ s.W + 4 + acc * (2 * s.W + 2) + quiet.length ∧
        execN n (.mr acc) s = .next { s with
          status := Status.ofTest s.status.wign (mrF s.A acc p), phase := .idle, work := wk, ret := rt, rng := rest })

/-- MRD, from START to its commit (spec/43_miller_rabin.md section 3), for whatever function `LNB` is: the outcome is
`mrd_f(A)` with witnesses `2 .. min(A - 1, LNB(A))`; the source is never asked. -/
def Obligations.DeterministicTestComputes : Prop :=
  ∀ s : State, Started s → s.WidthOk → s.A < 2 ^ s.W →
    ∃ n wk rt,
      n ≤ s.W + 4 + (min (s.A - 1) (Config.lnb s.A) - 1) * (2 * s.W + 2) ∧
      execN n .mrd s = .next { s with
        status := Status.ofTest s.status.wign (mrdF s.A (Config.lnb s.A)), phase := .idle, work := wk, ret := rt }

/-- CHECK100 and CHECK1000, from START to the commit (spec/44_candidate_check.md): a rejected candidate gives verdict 0 and
consumes no answer, whatever `A` is; an accepted one gives the outcome of the witness loop, `INVALID_INPUT` before the source
is asked when `A <= 4`. That the waiting counts as micro-steps in the bound of the last clause is the model's choice (log 5). -/
def Obligations.CandidateCheckComputes : Prop :=
  ∀ (s : State) (acc : Nat), Started s → s.WidthOk → s.A < 2 ^ s.W →
    ∀ p ∈ [(Instr.check100 acc, 100), (.check1000 acc, 1000)],
    (tdivF s.A p.2 = false → ∃ n wk rt, n ≤ p.2 + 1 ∧ execN n p.1 s = .next { s with
      status := Status.ofVerdict s.status.wign false, phase := .idle, work := wk, ret := rt }) ∧
    (tdivF s.A p.2 = true → s.A ≤ 4 → ∃ wk rt, execN (p.2 + 3) p.1 s = .next { s with
      status := Status.ofError s.status.wign .invalidInput, phase := .idle, work := wk, ret := rt }) ∧
    (tdivF s.A p.2 = true → 4 < s.A → ∀ (quiet : List RngPins) (a : RngPins) (rest : List RngPins),
      (∀ x ∈ quiet, x.silent) → a.answers → s.rng = quiet ++ a :: rest →
      ∃ n wk rt, n ≤ p.2 + 1 + (s.W + 4 + acc * (2 * s.W + 2) + quiet.length) ∧
        execN n p.1 s = .next { s with
          status := Status.ofTest s.status.wign (checkF s.A p.2 acc a), phase := .idle, work := wk, ret := rt,
          rng := rest })

/-- CHECK is the sequence of its parts (R212): if TDIV ends with verdict 0, CHECK ends with the same status; otherwise, if MR
ends, CHECK ends with MR's status and has consumed the same answers (a list in State, log 5). `R` and `S` are unchanged. -/
def Obligations.CheckIsFilterThenTest : Prop :=
  ∀ (s : State) (acc : Nat), Started s →
    ∀ p ∈ [(Instr.tdiv100, Instr.check100 acc), (.tdiv1000, .check1000 acc)],
    ∀ (n₁ : Nat) (t₁ : State), execN n₁ p.1 s = .next t₁ → t₁.phase = .idle →
      (t₁.status.verdict = false → ∃ n t, execN n p.2 s = .next t ∧ t.phase = .idle ∧ t.status = t₁.status ∧
        t.R = s.R ∧ t.S = s.S ∧ t.rng = s.rng) ∧
      (t₁.status.verdict = true → ∀ (n₂ : Nat) (t₂ : State), execN n₂ (.mr acc) s = .next t₂ → t₂.phase = .idle →
        ∃ n t, execN n p.2 s = .next t ∧ t.phase = .idle ∧ t.status = t₂.status ∧ t.R = s.R ∧ t.S = s.S ∧
          t.rng = t₂.rng)

/-- The prime ROM (R160): entry `k` is the `(k+1)`-th prime, with the two check sums and the two last entries of the rule. -/
def Obligations.PrimeTable : Prop :=
  (∀ k < 1000, prime k = Nat.nth Nat.Prime k) ∧ prime 99 = 541 ∧ prime 999 = 7919 ∧
  ((List.range 100).map prime).sum = 24133 ∧ ((List.range 1000).map prime).sum = 3682913

/-- The witness update of R185: for `n > 4` the witness is `(w * 48271) mod (n - 4) + 2`, lies in `2 .. n - 3`, and for
`n = 5` is always 2. -/
def Obligations.WitnessUpdate : Prop :=
  (∀ w n, 4 < n → lcg w n = w * 48271 % (n - 4) + 2 ∧ 2 ≤ lcg w n ∧ lcg w n ≤ n - 3) ∧ ∀ w, lcg w 5 = 2

/-- No false negative (spec/43_miller_rabin.md section 5, spec/42_trial_division.md section 3): a prime is accepted by both
filters, by MR at every accuracy and every word of the source, and by MRD whatever `LNB` is. So a verdict of 0 proves its
operand composite (or, of a filter, 0). -/
def Obligations.PrimesAreAccepted : Prop :=
  ∀ n : Nat, n.Prime →
    tdivF n 100 = true ∧ tdivF n 1000 = true ∧
    (4 < n → ∀ (acc : Nat) (p : RngPins), p.fail = false → mrF n acc p = .ok true) ∧
    (3 < n → ∀ lnb : Nat, mrdF n lnb = .ok true)

/-- The reference bound is at least 3 for every `n >= 4`, so under it the witness 2 is tried (spec/43_miller_rabin.md
section 5). -/
def Obligations.ReferenceBoundIsAtLeastThree : Prop :=
  ∀ n v : Nat, 4 ≤ n → Config.IsLnbRef n v → 3 ≤ v

/-! ### Invariants -/

/-- The invariant holds in the reset state of a block of every legal width. -/
def Obligations.ResetMeetsTheInvariant : Prop :=
  ∀ nw : Nat, 2 ≤ nw → nw ≤ 128 → Inv (State.resetFor nw)

/-- Every step keeps the invariant, from every state that meets it, whatever the host, the source and the reset input do. -/
def Obligations.StepKeepsTheInvariant : Prop :=
  ∀ s t : State, Inv s → step s = .next t → Inv t

/-- In states of the invariant a step never stops: the machine has no fault and no refusal of its own (R240, R282). That a step
of an engine waiting for the source is a next state is the model's choice (log 5). -/
def Obligations.MachineNeverStops : Prop :=
  ∀ s : State, Inv s → StepsOn s

/-- R44 along every run: no register ever leaves its range. -/
def Obligations.RegistersStayInRange : Prop :=
  ∀ (n : Nat) (s t : State), Inv s → core.run n s = .next t → t.nw = s.nw ∧ RangeOk t

/-- The invariants of R28 among the fields of `STATUS` are kept by every step from every state that meets them. -/
def Obligations.StepKeepsStatusConsistent : Prop :=
  ∀ s t : State, StatusOk s.status → step s = .next t → StatusOk t.status

/-- `phase = IDLE` exactly when `BUSY = 0` (R36) and `rng_req = 1` exactly in `MR_SEED` (R40), kept by every step. -/
def Obligations.StepKeepsSequencerConsistent : Prop :=
  ∀ s t : State, SequencerOk s → step s = .next t → SequencerOk t

/-- R281, as non-interference: the working registers and `ret` at START reach no result. Two runs that differ only in them
agree, after every number of micro-steps, in everything but working registers and `ret`. -/
def Obligations.WorkingRegistersReachNoResult : Prop :=
  ∀ (i : Instr) (n : Nat) (s : State) (wk : Work) (rt : Ret), Started s →
    ∃ t u, execN n i s = .next t ∧ execN n i { s with work := wk, ret := rt } = .next u ∧
      u = { t with work := u.work, ret := u.ret }
end

