-- ==== Sys2Proof/Laws/State.lean ====
section
/-! SUPPORT. What each named operation leaves in each field of the state, one lemma per field, so that no proof unfolds a
record update. -/

namespace Sys2Proof.Machine

/-! ### completeErr: status, phase and request only (R128) -/

@[simp] theorem completeErr_nw (c : ErrCode) (s : State) :
    (completeErr c s).nw = s.nw := rfl
@[simp] theorem completeErr_A (c : ErrCode) (s : State) :
    (completeErr c s).A = s.A := rfl
@[simp] theorem completeErr_E (c : ErrCode) (s : State) :
    (completeErr c s).E = s.E := rfl
@[simp] theorem completeErr_M (c : ErrCode) (s : State) :
    (completeErr c s).M = s.M := rfl
@[simp] theorem completeErr_R (c : ErrCode) (s : State) :
    (completeErr c s).R = s.R := rfl
@[simp] theorem completeErr_S (c : ErrCode) (s : State) :
    (completeErr c s).S = s.S := rfl
@[simp] theorem completeErr_ie (c : ErrCode) (s : State) :
    (completeErr c s).ie = s.ie := rfl
@[simp] theorem completeErr_status (c : ErrCode) (s : State) :
    (completeErr c s).status = s.status.failed c := rfl
@[simp] theorem completeErr_lastcmd (c : ErrCode) (s : State) :
    (completeErr c s).lastcmd = s.lastcmd := rfl
@[simp] theorem completeErr_phase (c : ErrCode) (s : State) :
    (completeErr c s).phase = .idle := rfl
@[simp] theorem completeErr_ret (c : ErrCode) (s : State) :
    (completeErr c s).ret = s.ret := rfl
@[simp] theorem completeErr_work (c : ErrCode) (s : State) :
    (completeErr c s).work = s.work := rfl
@[simp] theorem completeErr_rngReq (c : ErrCode) (s : State) :
    (completeErr c s).rngReq = false := rfl
@[simp] theorem completeErr_rdata (c : ErrCode) (s : State) :
    (completeErr c s).rdata = s.rdata := rfl
@[simp] theorem completeErr_events (c : ErrCode) (s : State) :
    (completeErr c s).events = s.events := rfl
@[simp] theorem completeErr_rng (c : ErrCode) (s : State) :
    (completeErr c s).rng = s.rng := rfl

/-! ### completeOk: frame (R127) -/

@[simp] theorem completeOk_nw (res : Result) (s : State) :
    (completeOk res s).nw = s.nw := by cases res <;> rfl
@[simp] theorem completeOk_A (res : Result) (s : State) :
    (completeOk res s).A = s.A := by cases res <;> rfl
@[simp] theorem completeOk_E (res : Result) (s : State) :
    (completeOk res s).E = s.E := by cases res <;> rfl
@[simp] theorem completeOk_M (res : Result) (s : State) :
    (completeOk res s).M = s.M := by cases res <;> rfl
@[simp] theorem completeOk_ie (res : Result) (s : State) :
    (completeOk res s).ie = s.ie := by cases res <;> rfl
@[simp] theorem completeOk_lastcmd (res : Result) (s : State) :
    (completeOk res s).lastcmd = s.lastcmd := by cases res <;> rfl
@[simp] theorem completeOk_phase (res : Result) (s : State) :
    (completeOk res s).phase = .idle := by cases res <;> rfl
@[simp] theorem completeOk_ret (res : Result) (s : State) :
    (completeOk res s).ret = s.ret := by cases res <;> rfl
@[simp] theorem completeOk_work (res : Result) (s : State) :
    (completeOk res s).work = s.work := by cases res <;> rfl
@[simp] theorem completeOk_rngReq (res : Result) (s : State) :
    (completeOk res s).rngReq = s.rngReq := by cases res <;> rfl
@[simp] theorem completeOk_rdata (res : Result) (s : State) :
    (completeOk res s).rdata = s.rdata := by cases res <;> rfl
@[simp] theorem completeOk_events (res : Result) (s : State) :
    (completeOk res s).events = s.events := by cases res <;> rfl
@[simp] theorem completeOk_rng (res : Result) (s : State) :
    (completeOk res s).rng = s.rng := by cases res <;> rfl

@[simp] theorem completeOk_big_R (v : Nat) (s : State) : (completeOk (.big v) s).R = v := rfl
@[simp] theorem completeOk_big_S (v : Nat) (s : State) : (completeOk (.big v) s).S = s.S := rfl
@[simp] theorem completeOk_big_status (v : Nat) (s : State) : (completeOk (.big v) s).status = s.status.finished := rfl
@[simp] theorem completeOk_factors_R (u v : Nat) (s : State) : (completeOk (.factors u v) s).R = v := rfl
@[simp] theorem completeOk_factors_S (u v : Nat) (s : State) :
    (completeOk (.factors u v) s).S = BitVec.ofNat 32 u := rfl
@[simp] theorem completeOk_factors_status (u v : Nat) (s : State) :
    (completeOk (.factors u v) s).status = s.status.finished := rfl
@[simp] theorem completeOk_verdict_R (q : Bool) (s : State) : (completeOk (.verdict q) s).R = s.R := rfl
@[simp] theorem completeOk_verdict_S (q : Bool) (s : State) : (completeOk (.verdict q) s).S = s.S := rfl
@[simp] theorem completeOk_verdict_status (q : Bool) (s : State) :
    (completeOk (.verdict q) s).status = s.status.judged q := rfl

/-! ### ignoreWrite: only `WIGN` (R66) -/

@[simp] theorem ignoreWrite_nw (s : State) :
    (ignoreWrite s).nw = s.nw := rfl
@[simp] theorem ignoreWrite_A (s : State) :
    (ignoreWrite s).A = s.A := rfl
@[simp] theorem ignoreWrite_E (s : State) :
    (ignoreWrite s).E = s.E := rfl
@[simp] theorem ignoreWrite_M (s : State) :
    (ignoreWrite s).M = s.M := rfl
@[simp] theorem ignoreWrite_R (s : State) :
    (ignoreWrite s).R = s.R := rfl
@[simp] theorem ignoreWrite_S (s : State) :
    (ignoreWrite s).S = s.S := rfl
@[simp] theorem ignoreWrite_ie (s : State) :
    (ignoreWrite s).ie = s.ie := rfl
@[simp] theorem ignoreWrite_status (s : State) :
    (ignoreWrite s).status = { s.status with wign := true } := rfl
@[simp] theorem ignoreWrite_lastcmd (s : State) :
    (ignoreWrite s).lastcmd = s.lastcmd := rfl
@[simp] theorem ignoreWrite_phase (s : State) :
    (ignoreWrite s).phase = s.phase := rfl
@[simp] theorem ignoreWrite_ret (s : State) :
    (ignoreWrite s).ret = s.ret := rfl
@[simp] theorem ignoreWrite_work (s : State) :
    (ignoreWrite s).work = s.work := rfl
@[simp] theorem ignoreWrite_rngReq (s : State) :
    (ignoreWrite s).rngReq = s.rngReq := rfl
@[simp] theorem ignoreWrite_rdata (s : State) :
    (ignoreWrite s).rdata = s.rdata := rfl
@[simp] theorem ignoreWrite_events (s : State) :
    (ignoreWrite s).events = s.events := rfl
@[simp] theorem ignoreWrite_rng (s : State) :
    (ignoreWrite s).rng = s.rng := rfl

/-! ### hostRead: only `p_rdata` (R62) -/

@[simp] theorem hostRead_nw (s : State) (idx : PortIdx) :
    (hostRead s idx).nw = s.nw := rfl
@[simp] theorem hostRead_A (s : State) (idx : PortIdx) :
    (hostRead s idx).A = s.A := rfl
@[simp] theorem hostRead_E (s : State) (idx : PortIdx) :
    (hostRead s idx).E = s.E := rfl
@[simp] theorem hostRead_M (s : State) (idx : PortIdx) :
    (hostRead s idx).M = s.M := rfl
@[simp] theorem hostRead_R (s : State) (idx : PortIdx) :
    (hostRead s idx).R = s.R := rfl
@[simp] theorem hostRead_S (s : State) (idx : PortIdx) :
    (hostRead s idx).S = s.S := rfl
@[simp] theorem hostRead_ie (s : State) (idx : PortIdx) :
    (hostRead s idx).ie = s.ie := rfl
@[simp] theorem hostRead_status (s : State) (idx : PortIdx) :
    (hostRead s idx).status = s.status := rfl
@[simp] theorem hostRead_lastcmd (s : State) (idx : PortIdx) :
    (hostRead s idx).lastcmd = s.lastcmd := rfl
@[simp] theorem hostRead_phase (s : State) (idx : PortIdx) :
    (hostRead s idx).phase = s.phase := rfl
@[simp] theorem hostRead_ret (s : State) (idx : PortIdx) :
    (hostRead s idx).ret = s.ret := rfl
@[simp] theorem hostRead_work (s : State) (idx : PortIdx) :
    (hostRead s idx).work = s.work := rfl
@[simp] theorem hostRead_rngReq (s : State) (idx : PortIdx) :
    (hostRead s idx).rngReq = s.rngReq := rfl
@[simp] theorem hostRead_rdata (s : State) (idx : PortIdx) :
    (hostRead s idx).rdata = memRead s idx := rfl
@[simp] theorem hostRead_events (s : State) (idx : PortIdx) :
    (hostRead s idx).events = s.events := rfl
@[simp] theorem hostRead_rng (s : State) (idx : PortIdx) :
    (hostRead s idx).rng = s.rng := rfl

/-! ### startRound: the exponentiation of a round (R189, R190) -/

@[simp] theorem startRound_nw (w : Work) (s : State) :
    (startRound w s).nw = s.nw := rfl
@[simp] theorem startRound_A (w : Work) (s : State) :
    (startRound w s).A = s.A := rfl
@[simp] theorem startRound_E (w : Work) (s : State) :
    (startRound w s).E = s.E := rfl
@[simp] theorem startRound_M (w : Work) (s : State) :
    (startRound w s).M = s.M := rfl
@[simp] theorem startRound_R (w : Work) (s : State) :
    (startRound w s).R = s.R := rfl
@[simp] theorem startRound_S (w : Work) (s : State) :
    (startRound w s).S = s.S := rfl
@[simp] theorem startRound_ie (w : Work) (s : State) :
    (startRound w s).ie = s.ie := rfl
@[simp] theorem startRound_status (w : Work) (s : State) :
    (startRound w s).status = s.status := rfl
@[simp] theorem startRound_lastcmd (w : Work) (s : State) :
    (startRound w s).lastcmd = s.lastcmd := rfl
@[simp] theorem startRound_phase (w : Work) (s : State) :
    (startRound w s).phase = .pmLoop := rfl
@[simp] theorem startRound_ret (w : Work) (s : State) :
    (startRound w s).ret = .mr := rfl
@[simp] theorem startRound_work (w : Work) (s : State) :
    (startRound w s).work = { w with r := 1, b := w.w, e := w.d, m := w.nn } := rfl
@[simp] theorem startRound_rngReq (w : Work) (s : State) :
    (startRound w s).rngReq = s.rngReq := rfl
@[simp] theorem startRound_rdata (w : Work) (s : State) :
    (startRound w s).rdata = s.rdata := rfl
@[simp] theorem startRound_events (w : Work) (s : State) :
    (startRound w s).events = s.events := rfl
@[simp] theorem startRound_rng (w : Work) (s : State) :
    (startRound w s).rng = s.rng := rfl

/-! ### roundPasses: a round passes (R191, R192) -/

@[simp] theorem roundPasses_nw (f : CmdFields) (w : Work) (s : State) :
    (roundPasses f w s).nw = s.nw := by unfold roundPasses; cases f.mode <;> rfl
@[simp] theorem roundPasses_A (f : CmdFields) (w : Work) (s : State) :
    (roundPasses f w s).A = s.A := by unfold roundPasses; cases f.mode <;> rfl
@[simp] theorem roundPasses_E (f : CmdFields) (w : Work) (s : State) :
    (roundPasses f w s).E = s.E := by unfold roundPasses; cases f.mode <;> rfl
@[simp] theorem roundPasses_M (f : CmdFields) (w : Work) (s : State) :
    (roundPasses f w s).M = s.M := by unfold roundPasses; cases f.mode <;> rfl
@[simp] theorem roundPasses_R (f : CmdFields) (w : Work) (s : State) :
    (roundPasses f w s).R = s.R := by unfold roundPasses; cases f.mode <;> rfl
@[simp] theorem roundPasses_S (f : CmdFields) (w : Work) (s : State) :
    (roundPasses f w s).S = s.S := by unfold roundPasses; cases f.mode <;> rfl
@[simp] theorem roundPasses_ie (f : CmdFields) (w : Work) (s : State) :
    (roundPasses f w s).ie = s.ie := by unfold roundPasses; cases f.mode <;> rfl
@[simp] theorem roundPasses_status (f : CmdFields) (w : Work) (s : State) :
    (roundPasses f w s).status = s.status := by unfold roundPasses; cases f.mode <;> rfl
@[simp] theorem roundPasses_lastcmd (f : CmdFields) (w : Work) (s : State) :
    (roundPasses f w s).lastcmd = s.lastcmd := by unfold roundPasses; cases f.mode <;> rfl
@[simp] theorem roundPasses_phase (f : CmdFields) (w : Work) (s : State) :
    (roundPasses f w s).phase = .mrRound := by unfold roundPasses; cases f.mode <;> rfl
@[simp] theorem roundPasses_ret (f : CmdFields) (w : Work) (s : State) :
    (roundPasses f w s).ret = s.ret := by unfold roundPasses; cases f.mode <;> rfl
@[simp] theorem roundPasses_rngReq (f : CmdFields) (w : Work) (s : State) :
    (roundPasses f w s).rngReq = s.rngReq := by unfold roundPasses; cases f.mode <;> rfl
@[simp] theorem roundPasses_rdata (f : CmdFields) (w : Work) (s : State) :
    (roundPasses f w s).rdata = s.rdata := by unfold roundPasses; cases f.mode <;> rfl
@[simp] theorem roundPasses_events (f : CmdFields) (w : Work) (s : State) :
    (roundPasses f w s).events = s.events := by unfold roundPasses; cases f.mode <;> rfl
@[simp] theorem roundPasses_rng (f : CmdFields) (w : Work) (s : State) :
    (roundPasses f w s).rng = s.rng := by unfold roundPasses; cases f.mode <;> rfl

/-! ### resetBlock: every piece of the block, not the environment (R270) -/

@[simp] theorem resetBlock_nw (s : State) :
    (resetBlock s).nw = s.nw := rfl
@[simp] theorem resetBlock_A (s : State) :
    (resetBlock s).A = 0 := rfl
@[simp] theorem resetBlock_E (s : State) :
    (resetBlock s).E = 0 := rfl
@[simp] theorem resetBlock_M (s : State) :
    (resetBlock s).M = 0 := rfl
@[simp] theorem resetBlock_R (s : State) :
    (resetBlock s).R = 0 := rfl
@[simp] theorem resetBlock_S (s : State) :
    (resetBlock s).S = 0 := rfl
@[simp] theorem resetBlock_ie (s : State) :
    (resetBlock s).ie = false := rfl
@[simp] theorem resetBlock_status (s : State) :
    (resetBlock s).status = Status.reset := rfl
@[simp] theorem resetBlock_lastcmd (s : State) :
    (resetBlock s).lastcmd = 0 := rfl
@[simp] theorem resetBlock_phase (s : State) :
    (resetBlock s).phase = .idle := rfl
@[simp] theorem resetBlock_ret (s : State) :
    (resetBlock s).ret = .cmd := rfl
@[simp] theorem resetBlock_work (s : State) :
    (resetBlock s).work = Work.reset := rfl
@[simp] theorem resetBlock_rngReq (s : State) :
    (resetBlock s).rngReq = false := rfl
@[simp] theorem resetBlock_rdata (s : State) :
    (resetBlock s).rdata = s.rdata := rfl
@[simp] theorem resetBlock_events (s : State) :
    (resetBlock s).events = s.events := rfl
@[simp] theorem resetBlock_rng (s : State) :
    (resetBlock s).rng = s.rng := rfl

/-! ### acceptCmd: frame (R123) -/

@[simp] theorem acceptCmd_nw (cw : Word) (s : State) :
    (acceptCmd cw s).nw = s.nw := by unfold acceptCmd; split <;> rfl
@[simp] theorem acceptCmd_A (cw : Word) (s : State) :
    (acceptCmd cw s).A = s.A := by unfold acceptCmd; split <;> rfl
@[simp] theorem acceptCmd_E (cw : Word) (s : State) :
    (acceptCmd cw s).E = s.E := by unfold acceptCmd; split <;> rfl
@[simp] theorem acceptCmd_M (cw : Word) (s : State) :
    (acceptCmd cw s).M = s.M := by unfold acceptCmd; split <;> rfl
@[simp] theorem acceptCmd_R (cw : Word) (s : State) :
    (acceptCmd cw s).R = s.R := by unfold acceptCmd; split <;> rfl
@[simp] theorem acceptCmd_S (cw : Word) (s : State) :
    (acceptCmd cw s).S = s.S := by unfold acceptCmd; split <;> rfl
@[simp] theorem acceptCmd_ie (cw : Word) (s : State) :
    (acceptCmd cw s).ie = s.ie := by unfold acceptCmd; split <;> rfl
@[simp] theorem acceptCmd_lastcmd (cw : Word) (s : State) :
    (acceptCmd cw s).lastcmd = cw := by unfold acceptCmd; split <;> rfl
@[simp] theorem acceptCmd_ret (cw : Word) (s : State) :
    (acceptCmd cw s).ret = s.ret := by unfold acceptCmd; split <;> rfl
@[simp] theorem acceptCmd_work (cw : Word) (s : State) :
    (acceptCmd cw s).work = s.work := by unfold acceptCmd; split <;> rfl
@[simp] theorem acceptCmd_rdata (cw : Word) (s : State) :
    (acceptCmd cw s).rdata = s.rdata := by unfold acceptCmd; split <;> rfl
@[simp] theorem acceptCmd_events (cw : Word) (s : State) :
    (acceptCmd cw s).events = s.events := by unfold acceptCmd; split <;> rfl
@[simp] theorem acceptCmd_rng (cw : Word) (s : State) :
    (acceptCmd cw s).rng = s.rng := by unfold acceptCmd; split <;> rfl

/-! ### startWord: a command just accepted -/

@[simp] theorem startWord_nw (s : State) (cw : Word) :
    (startWord s cw).nw = s.nw := rfl
@[simp] theorem startWord_A (s : State) (cw : Word) :
    (startWord s cw).A = s.A := rfl
@[simp] theorem startWord_E (s : State) (cw : Word) :
    (startWord s cw).E = s.E := rfl
@[simp] theorem startWord_M (s : State) (cw : Word) :
    (startWord s cw).M = s.M := rfl
@[simp] theorem startWord_R (s : State) (cw : Word) :
    (startWord s cw).R = s.R := rfl
@[simp] theorem startWord_S (s : State) (cw : Word) :
    (startWord s cw).S = s.S := rfl
@[simp] theorem startWord_ie (s : State) (cw : Word) :
    (startWord s cw).ie = s.ie := rfl
@[simp] theorem startWord_status (s : State) (cw : Word) :
    (startWord s cw).status = { s.status.cleared with busy := true } := rfl
@[simp] theorem startWord_lastcmd (s : State) (cw : Word) :
    (startWord s cw).lastcmd = cw := rfl
@[simp] theorem startWord_phase (s : State) (cw : Word) :
    (startWord s cw).phase = .start := rfl
@[simp] theorem startWord_ret (s : State) (cw : Word) :
    (startWord s cw).ret = s.ret := rfl
@[simp] theorem startWord_work (s : State) (cw : Word) :
    (startWord s cw).work = s.work := rfl
@[simp] theorem startWord_rngReq (s : State) (cw : Word) :
    (startWord s cw).rngReq = s.rngReq := rfl
@[simp] theorem startWord_rdata (s : State) (cw : Word) :
    (startWord s cw).rdata = s.rdata := rfl
@[simp] theorem startWord_events (s : State) (cw : Word) :
    (startWord s cw).events = .engine :: s.events := rfl
@[simp] theorem startWord_rng (s : State) (cw : Word) :
    (startWord s cw).rng = s.rng := rfl

/-! ### Status.cleared: acceptance (R123) -/

@[simp] theorem Status.cleared_busy (t : Status) :
    (t.cleared).busy = t.busy := rfl
@[simp] theorem Status.cleared_done (t : Status) :
    (t.cleared).done = false := rfl
@[simp] theorem Status.cleared_err (t : Status) :
    (t.cleared).err = false := rfl
@[simp] theorem Status.cleared_verdict (t : Status) :
    (t.cleared).verdict = false := rfl
@[simp] theorem Status.cleared_vvalid (t : Status) :
    (t.cleared).vvalid = false := rfl
@[simp] theorem Status.cleared_wign (t : Status) :
    (t.cleared).wign = t.wign := rfl
@[simp] theorem Status.cleared_errcode (t : Status) :
    (t.cleared).errcode = .none := rfl

/-! ### Status.finished: a commit (R127) -/

@[simp] theorem Status.finished_busy (t : Status) :
    (t.finished).busy = false := rfl
@[simp] theorem Status.finished_done (t : Status) :
    (t.finished).done = true := rfl
@[simp] theorem Status.finished_err (t : Status) :
    (t.finished).err = t.err := rfl
@[simp] theorem Status.finished_verdict (t : Status) :
    (t.finished).verdict = t.verdict := rfl
@[simp] theorem Status.finished_vvalid (t : Status) :
    (t.finished).vvalid = t.vvalid := rfl
@[simp] theorem Status.finished_wign (t : Status) :
    (t.finished).wign = t.wign := rfl
@[simp] theorem Status.finished_errcode (t : Status) :
    (t.finished).errcode = t.errcode := rfl

/-! ### Status.failed: an error (R128) -/

@[simp] theorem Status.failed_busy (t : Status) (c : ErrCode) :
    (t.failed c).busy = false := rfl
@[simp] theorem Status.failed_done (t : Status) (c : ErrCode) :
    (t.failed c).done = true := rfl
@[simp] theorem Status.failed_err (t : Status) (c : ErrCode) :
    (t.failed c).err = true := rfl
@[simp] theorem Status.failed_verdict (t : Status) (c : ErrCode) :
    (t.failed c).verdict = t.verdict := rfl
@[simp] theorem Status.failed_vvalid (t : Status) (c : ErrCode) :
    (t.failed c).vvalid = t.vvalid := rfl
@[simp] theorem Status.failed_wign (t : Status) (c : ErrCode) :
    (t.failed c).wign = t.wign := rfl
@[simp] theorem Status.failed_errcode (t : Status) (c : ErrCode) :
    (t.failed c).errcode = c := rfl

/-! ### Status.judged: a verdict (R127) -/

@[simp] theorem Status.judged_busy (t : Status) (q : Bool) :
    (t.judged q).busy = false := rfl
@[simp] theorem Status.judged_done (t : Status) (q : Bool) :
    (t.judged q).done = true := rfl
@[simp] theorem Status.judged_err (t : Status) (q : Bool) :
    (t.judged q).err = t.err := rfl
@[simp] theorem Status.judged_verdict (t : Status) (q : Bool) :
    (t.judged q).verdict = q := rfl
@[simp] theorem Status.judged_vvalid (t : Status) (q : Bool) :
    (t.judged q).vvalid = true := rfl
@[simp] theorem Status.judged_wign (t : Status) (q : Bool) :
    (t.judged q).wign = t.wign := rfl
@[simp] theorem Status.judged_errcode (t : Status) (q : Bool) :
    (t.judged q).errcode = t.errcode := rfl

/-! ### Status.writeOneToClear: a write of `STATUS` (R224, R225) -/

@[simp] theorem Status.writeOneToClear_busy (t : Status) (v : Word) :
    (t.writeOneToClear v).busy = t.busy := rfl
@[simp] theorem Status.writeOneToClear_done (t : Status) (v : Word) :
    (t.writeOneToClear v).done = (t.done && !v.getLsbD 1) := rfl
@[simp] theorem Status.writeOneToClear_err (t : Status) (v : Word) :
    (t.writeOneToClear v).err = t.err := rfl
@[simp] theorem Status.writeOneToClear_verdict (t : Status) (v : Word) :
    (t.writeOneToClear v).verdict = t.verdict := rfl
@[simp] theorem Status.writeOneToClear_vvalid (t : Status) (v : Word) :
    (t.writeOneToClear v).vvalid = t.vvalid := rfl
@[simp] theorem Status.writeOneToClear_wign (t : Status) (v : Word) :
    (t.writeOneToClear v).wign = (t.wign && !v.getLsbD 5) := rfl
@[simp] theorem Status.writeOneToClear_errcode (t : Status) (v : Word) :
    (t.writeOneToClear v).errcode = t.errcode := rfl

end Sys2Proof.Machine
end

