-- ==== Sys2Proof/Laws/Ops.lean ====
section
/-! SUPPORT. What the port map, the words of a big register and the writes of the port can do, one lemma per operation. -/

namespace Sys2Proof.Machine

/-! ### The port map (R64) -/

theorem portMap_id (nw : Nat) : portMap nw 0x000 = .id := rfl
theorem portMap_param (nw : Nat) : portMap nw 0x001 = .param := rfl
@[simp] theorem portMap_ctrl (nw : Nat) : portMap nw ctrlIdx = .ctrl := rfl
@[simp] theorem portMap_status (nw : Nat) : portMap nw statusIdx = .status := rfl
@[simp] theorem portMap_cmd (nw : Nat) : portMap nw cmdIdx = .cmd := rfl
theorem portMap_lastcmd (nw : Nat) : portMap nw 0x005 = .lastcmd := rfl
theorem portMap_s (nw : Nat) : portMap nw 0x006 = .s := rfl

theorem portMap_reserved (nw : Nat) (idx : PortIdx) (h : 7 ≤ idx.toNat) (h' : idx.toNat < 0x080) :
    portMap nw idx = .reserved := by
  unfold portMap
  simp only [show idx.toNat ≠ 0 by omega, show idx.toNat ≠ 1 by omega, show idx.toNat ≠ 2 by omega,
    show idx.toNat ≠ 3 by omega, show idx.toNat ≠ 4 by omega, show idx.toNat ≠ 5 by omega,
    show idx.toNat ≠ 6 by omega, h', if_true, if_false]

theorem portMap_a (nw : Nat) (idx : PortIdx) (h : 0x080 ≤ idx.toNat) (h' : idx.toNat < 0x100) :
    portMap nw idx = window nw (idx.toNat - 0x080) .aWord := by
  unfold portMap
  simp only [show idx.toNat ≠ 0 by omega, show idx.toNat ≠ 1 by omega, show idx.toNat ≠ 2 by omega,
    show idx.toNat ≠ 3 by omega, show idx.toNat ≠ 4 by omega, show idx.toNat ≠ 5 by omega,
    show idx.toNat ≠ 6 by omega, show ¬ idx.toNat < 0x080 by omega, h', if_true, if_false]

theorem portMap_e (nw : Nat) (idx : PortIdx) (h : 0x100 ≤ idx.toNat) (h' : idx.toNat < 0x180) :
    portMap nw idx = window nw (idx.toNat - 0x100) .eWord := by
  unfold portMap
  simp only [show idx.toNat ≠ 0 by omega, show idx.toNat ≠ 1 by omega, show idx.toNat ≠ 2 by omega,
    show idx.toNat ≠ 3 by omega, show idx.toNat ≠ 4 by omega, show idx.toNat ≠ 5 by omega,
    show idx.toNat ≠ 6 by omega, show ¬ idx.toNat < 0x080 by omega, show ¬ idx.toNat < 0x100 by omega, h', if_true,
    if_false]

theorem portMap_m (nw : Nat) (idx : PortIdx) (h : 0x180 ≤ idx.toNat) (h' : idx.toNat < 0x200) :
    portMap nw idx = window nw (idx.toNat - 0x180) .mWord := by
  unfold portMap
  simp only [show idx.toNat ≠ 0 by omega, show idx.toNat ≠ 1 by omega, show idx.toNat ≠ 2 by omega,
    show idx.toNat ≠ 3 by omega, show idx.toNat ≠ 4 by omega, show idx.toNat ≠ 5 by omega,
    show idx.toNat ≠ 6 by omega, show ¬ idx.toNat < 0x080 by omega, show ¬ idx.toNat < 0x100 by omega,
    show ¬ idx.toNat < 0x180 by omega, h', if_true, if_false]

theorem portMap_r (nw : Nat) (idx : PortIdx) (h : 0x200 ≤ idx.toNat) :
    portMap nw idx = window nw (idx.toNat - 0x200) .rWord := by
  unfold portMap
  simp only [show idx.toNat ≠ 0 by omega, show idx.toNat ≠ 1 by omega, show idx.toNat ≠ 2 by omega,
    show idx.toNat ≠ 3 by omega, show idx.toNat ≠ 4 by omega, show idx.toNat ≠ 5 by omega,
    show idx.toNat ≠ 6 by omega, show ¬ idx.toNat < 0x080 by omega, show ¬ idx.toNat < 0x100 by omega,
    show ¬ idx.toNat < 0x180 by omega, show ¬ idx.toNat < 0x200 by omega, if_false]

/-- Only index `0x004` is `CMD`. -/
theorem portMap_eq_cmd {nw : Nat} {idx : PortIdx} (h : portMap nw idx = .cmd) : idx = cmdIdx := by
  unfold portMap window at h
  apply BitVec.eq_of_toNat_eq
  show idx.toNat = 4
  grind (splits := 20)

/-- Only index `0x002` is `CTRL`. -/
theorem portMap_eq_ctrl {nw : Nat} {idx : PortIdx} (h : portMap nw idx = .ctrl) : idx = ctrlIdx := by
  unfold portMap window at h
  apply BitVec.eq_of_toNat_eq
  show idx.toNat = 2
  grind (splits := 20)

/-! ### The words of a big register (R67) -/

/-- Word `t` of a replaced register is the new word. -/
theorem getWord_setWord_same (v t : Nat) (x : Word) : getWord (setWord v t x) t = x := by
  apply BitVec.eq_of_toNat_eq
  have hp : 0 < 2 ^ (32 * t) := by positivity
  have hx := x.isLt
  have e : 2 ^ (32 * (t + 1)) = 2 ^ (32 * t) * 2 ^ 32 := by rw [← pow_add]; ring_nf
  have : setWord v t x =
      v % 2 ^ (32 * t) + 2 ^ (32 * t) * (x.toNat + v / 2 ^ (32 * (t + 1)) * 2 ^ 32) := by
    unfold setWord; rw [e]; ring
  simp only [getWord, BitVec.toNat_ofNat]
  rw [this, Nat.add_mul_div_left _ _ hp, Nat.div_eq_of_lt (Nat.mod_lt _ hp)]
  omega

/-- A power of two as a product. -/
theorem two_pow_split {a b c : Nat} (h : a = b + c) : 2 ^ a = 2 ^ b * 2 ^ c := by rw [h, pow_add]

/-- Every other word of a replaced register is as before. -/
theorem getWord_setWord_other (v : Nat) {t u : Nat} (x : Word) (h : u ≠ t) :
    getWord (setWord v t x) u = getWord v u := by
  apply BitVec.eq_of_toNat_eq
  simp only [getWord, BitVec.toNat_ofNat]
  have e : 2 ^ (32 * (t + 1)) = 2 ^ (32 * t) * 2 ^ 32 := two_pow_split (by omega)
  rcases Nat.lt_or_gt_of_ne h with h | h
  · obtain ⟨K, hK⟩ : ∃ K, 2 ^ (32 * t) = 2 ^ (32 * u) * 2 ^ 32 * K :=
      ⟨2 ^ (32 * (t - (u + 1))), by rw [← two_pow_split (a := 32 * u + 32) rfl]; exact two_pow_split (by omega)⟩
    rw [← Nat.mod_mul_right_div_self, ← Nat.mod_mul_right_div_self]
    refine congrArg (· / 2 ^ (32 * u)) ?_
    have : setWord v t x = v % 2 ^ (32 * t) + 2 ^ (32 * t) * (x.toNat + v / 2 ^ (32 * (t + 1)) * 2 ^ 32) := by
      unfold setWord; rw [e]; ring
    rw [this, hK, Nat.mul_assoc (2 ^ (32 * u) * 2 ^ 32) K, Nat.add_mul_mod_self_left, Nat.mod_mul_right_mod]
  · obtain ⟨K, hK⟩ : ∃ K, 2 ^ (32 * u) = 2 ^ (32 * (t + 1)) * K :=
      ⟨2 ^ (32 * (u - (t + 1))), two_pow_split (by omega)⟩
    have hq : 0 < 2 ^ (32 * (t + 1)) := Nat.two_pow_pos _
    have hlow : v % 2 ^ (32 * t) + x.toNat * 2 ^ (32 * t) < 2 ^ (32 * (t + 1)) := by
      have h2 : v % 2 ^ (32 * t) < 2 ^ (32 * t) := Nat.mod_lt _ (Nat.two_pow_pos _)
      have h3 : (x.toNat + 1) * 2 ^ (32 * t) ≤ 2 ^ 32 * 2 ^ (32 * t) := Nat.mul_le_mul_right _ x.isLt
      rw [Nat.add_mul, one_mul, mul_comm (2 ^ 32), ← e] at h3
      omega
    have : setWord v t x / 2 ^ (32 * (t + 1)) = v / 2 ^ (32 * (t + 1)) := by
      unfold setWord
      rw [Nat.add_mul_div_right _ _ hq, Nat.div_eq_of_lt hlow, Nat.zero_add]
    rw [hK, ← Nat.div_div_eq_div_mul, ← Nat.div_div_eq_div_mul, this]

/-- A replaced word keeps the register in its range. -/
theorem setWord_lt {v n t : Nat} (x : Word) (hv : v < 2 ^ (32 * n)) (ht : t < n) : setWord v t x < 2 ^ (32 * n) := by
  obtain ⟨P, hP⟩ : ∃ P, P = 2 ^ (32 * t) := ⟨_, rfl⟩
  obtain ⟨K, hK⟩ : ∃ K, K = 2 ^ (32 * (n - (t + 1))) := ⟨_, rfl⟩
  obtain ⟨Q, hQ⟩ : ∃ Q, Q = 2 ^ (32 * (t + 1)) := ⟨_, rfl⟩
  have hp : 0 < P := hP ▸ Nat.two_pow_pos _
  have hq : 0 < Q := hQ ▸ Nat.two_pow_pos _
  have e : Q = P * 4294967296 := by
    rw [hQ, hP, show (4294967296 : Nat) = 2 ^ 32 by norm_num, ← pow_add]; congr 1
  have e2 : 2 ^ (32 * n) = Q * K := by rw [hQ, hK, ← pow_add]; congr 1; omega
  have h1 : v / Q + 1 ≤ K := by
    rw [Nat.succ_le_iff, Nat.div_lt_iff_lt_mul hq, mul_comm, ← e2]; exact hv
  have h2 : v % P < P := Nat.mod_lt _ hp
  have h3 : (x.toNat + 1) * P ≤ 4294967296 * P := Nat.mul_le_mul_right _ x.isLt
  have h4 : (v / Q + 1) * Q ≤ K * Q := Nat.mul_le_mul_right _ h1
  unfold setWord
  rw [e2, ← hP, ← hQ, mul_comm Q K]
  rw [Nat.add_mul, one_mul] at h3 h4
  rw [mul_comm 4294967296 P, ← e] at h3
  omega

/-! ### Writes (R63, R66) -/

theorem whenIdle_busy {s : State} (h : s.status.busy = true) (f : State → State) : whenIdle s f = ignoreWrite s := by
  simp [whenIdle, h]

theorem whenIdle_idle {s : State} (h : s.status.busy = false) (f : State → State) : whenIdle s f = f s := by
  simp [whenIdle, h]

/-- What a write at any index can do while busy: set `WIGN`, act on `CTRL` or `STATUS`, or nothing (R66). -/
theorem memWrite_busy {s : State} (h : s.status.busy = true) (idx : PortIdx) (v : Word) :
    memWrite s idx v = s ∨ memWrite s idx v = ignoreWrite s ∨ (idx = ctrlIdx ∧ memWrite s idx v = writeCtrl v s) ∨
      memWrite s idx v = { s with status := s.status.writeOneToClear v } := by
  unfold memWrite
  split <;> simp [whenIdle_busy h]
  rename_i hm
  exact Or.inr (Or.inr (Or.inl (portMap_eq_ctrl hm)))

end Sys2Proof.Machine
end

