-- ==== Sys2Proof/Laws/Engine.lean ====
section
/-! SUPPORT. What the engine and a step can do: `exec` as the micro-step of the current phase, runs of `execN`, and the cases of
`step`. -/

namespace Sys2Proof.Machine

/-- The START action of each command (R124). -/
def startOf : Instr → State → State
  | .powmod => startPowmod
  | .fac2 => startFac2
  | .tdiv100 => startFilter
  | .tdiv1000 => startFilter
  | .mr _ => startTest
  | .mrd => startTest
  | .check100 _ => startFilter
  | .check1000 _ => startFilter

/-- `exec` is one micro-step: it never faults and never refuses. -/
theorem exec_eq_microStep (i : Instr) (s : State) : exec i s = .next (microStep (startOf i) (cmdFields i) s) := by
  cases i <;> rfl

theorem exec_next_iff {i : Instr} {s t : State} :
    exec i s = .next t ↔ t = microStep (startOf i) (cmdFields i) s := by
  rw [exec_eq_microStep]
  exact ⟨fun h => by injection h with h; exact h.symm, fun h => by rw [h]⟩

@[simp] theorem execN_zero (i : Instr) (s : State) : execN 0 i s = .next s := rfl

theorem execN_succ (n : Nat) (i : Instr) (s : State) :
    execN (n + 1) i s = execN n i (microStep (startOf i) (cmdFields i) s) := by
  rw [execN, exec_eq_microStep]

/-- Runs compose. -/
theorem execN_add {m n : Nat} {i : Instr} {s t : State} (h : execN m i s = .next t) :
    execN (m + n) i s = execN n i t := by
  induction m generalizing s with
  | zero => injection h with h; simp [h]
  | succ m ih =>
    rw [Nat.add_right_comm, execN_succ]
    rw [execN_succ] at h
    exact ih h

/-- An idle engine does nothing (R121). -/
theorem engineStep_idle {s : State} (h : s.status.busy = false) : engineStep s = .next s := by
  simp [engineStep, h]

/-- A busy engine runs the command in `LASTCMD` (R30, R121). -/
theorem engineStep_busy {s : State} {i : Instr} (h : s.status.busy = true) (hd : decode s.lastcmd = .ok i) :
    engineStep s = exec i s := by
  simp [engineStep, currentCommand, h, hd]

/-- A poll that reads `DONE` set ends the wait, busy or idle (R228). -/
theorem pollStep_done {s : State} {rest : List Event} (h : s.status.done = true) :
    pollStep s rest = .next { hostRead s statusIdx with events := rest } := by
  simp [pollStep, h]

/-- A poll that reads `DONE` clear gives the engine its move (log 7). -/
theorem pollStep_waits {s : State} {rest : List Event} (h : s.status.done = false) :
    pollStep s rest = engineStep (hostRead s statusIdx) := by
  simp [pollStep, h]

/-- Everything the engine's move can end in, if it ends in a next state. -/
theorem engineStep_cases {s t : State} (h : engineStep s = .next t) :
    (s.status.busy = false ∧ t = s) ∨
    ∃ i, s.status.busy = true ∧ decode s.lastcmd = .ok i ∧ t = microStep (startOf i) (cmdFields i) s := by
  cases hb : s.status.busy with
  | false => rw [engineStep_idle hb] at h; injection h with h; exact .inl ⟨rfl, h.symm⟩
  | true =>
    cases hd : decode s.lastcmd with
    | error c => simp [engineStep, currentCommand, hb, hd] at h
    | ok i => rw [engineStep_busy hb hd, exec_next_iff] at h; exact .inr ⟨i, rfl, rfl, h⟩

/-- Everything a step can end in, if it ends in a next state. -/
theorem step_cases {s t : State} (h : step s = .next t) :
    (s.events = [] ∧ engineStep s = .next t) ∨
    (∃ rest, s.events = .engine :: rest ∧ engineStep { s with events := rest } = .next t) ∨
    (∃ idx rest, s.events = .read idx :: rest ∧ t = hostRead { s with events := rest } idx) ∨
    (∃ idx v rest, s.events = .write idx v :: rest ∧ t = memWrite { s with events := rest } idx v) ∨
    (∃ rest, s.events = .wait :: rest ∧ s.status.done = true ∧
      t = { hostRead s statusIdx with events := rest }) ∨
    (∃ rest, s.events = .wait :: rest ∧ s.status.done = false ∧ engineStep (hostRead s statusIdx) = .next t) ∨
    (∃ rest, s.events = .rst :: rest ∧ t = resetBlock { s with events := rest }) := by
  unfold step at h
  split at h
  next he => exact .inl ⟨he, h⟩
  next rest he => exact .inr (.inl ⟨rest, he, h⟩)
  next idx rest he => injection h with h; exact .inr (.inr (.inl ⟨idx, rest, he, h.symm⟩))
  next idx v rest he => injection h with h; exact .inr (.inr (.inr (.inl ⟨idx, v, rest, he, h.symm⟩)))
  next rest he =>
    unfold pollStep at h
    split at h
    next hd => injection h with h; exact .inr (.inr (.inr (.inr (.inl ⟨rest, he, hd, h.symm⟩))))
    next hd => exact .inr (.inr (.inr (.inr (.inr (.inl ⟨rest, he, by simpa using hd, h⟩)))))
  next rest he => injection h with h; exact .inr (.inr (.inr (.inr (.inr (.inr ⟨rest, he, h.symm⟩)))))

end Sys2Proof.Machine
end

