-- ==== Sys2Proof/Laws/PerInstr.lean ====
section
/-! SUPPORT. The low half of every command word (spec/30_encoding.md R92, R96), one lemma per command. -/

namespace Sys2Proof.Laws.LowHalf

/-- The low 16 bits of the command's word: the opcode, `T`, and zeros in `rsv`, whatever the accuracy. -/
def Statement (i : Instr) : Prop :=
  (encode i).extractLsb' 0 16 =
    BitVec.ofNat 16 ((Machine.cmdFields i).op + (if (Machine.cmdFields i).tsel then 256 else 0))

/-- A word with an accuracy keeps its low half. -/
theorem accWord_low (acc : Nat) (low : Word) : (accWord acc low).extractLsb' 0 16 = low.extractLsb' 0 16 := by
  apply BitVec.eq_of_getLsbD_eq
  intro j hj
  simp only [accWord, BitVec.getLsbD_extractLsb', BitVec.getLsbD_or, BitVec.getLsbD_shiftLeft]
  simp [hj]

theorem powmod : Statement .powmod := rfl
theorem fac2 : Statement .fac2 := rfl
theorem tdiv100 : Statement .tdiv100 := rfl
theorem tdiv1000 : Statement .tdiv1000 := rfl
theorem mr (acc : Nat) : Statement (.mr acc) := (accWord_low acc _).trans rfl
theorem mrd : Statement .mrd := rfl
theorem check100 (acc : Nat) : Statement (.check100 acc) := (accWord_low acc _).trans rfl
theorem check1000 (acc : Nat) : Statement (.check1000 acc) := (accWord_low acc _).trans rfl

end Sys2Proof.Laws.LowHalf
end

