-- ==== Sys2Proof/Tests/Slice0.lean ====
section
/-! SUPPORT. The model's own tests. Expected values are those of spec/95_test_vectors.md (V<n>) and of the rules' tables, not the
model's; the witnesses show that the hypotheses of the statements can be met. -/

namespace Sys2Proof.Tests

open Sys2Proof.Machine

/-- The next state, if there is one. -/
def nextOf : Host.Outcome State Fault Refusal → Option State
  | .next s => some s
  | _ => none

/-- A block with `W = 64` whose command was just accepted, operands `A`, `E`, `M`. -/
def started (A E M : Nat) : State :=
  { State.resetFor 2 with A := A, E := E, M := M, status := Status.running false, phase := .start }

/-- The same block in phase `p` with working registers `w`. -/
def inPhase (p : Phase) (w : Work) : State := { started 0 0 0 with phase := p, work := w }

/-- The value of one read after a step. -/
def readAfter (o : Host.Outcome State Fault Refusal) (idx : PortIdx) : Option Word := (nextOf o).map fun s => memRead s idx

/-! ### WellFormed: an accuracy that does not fit its field is refused (R99) -/

theorem test_mr_65536_ill_formed : (Instr.mr 65536).wellFormed = false := by decide
theorem test_check100_65536_ill_formed : (Instr.check100 65536).wellFormed = false := by decide
theorem test_check1000_70000_ill_formed : (Instr.check1000 70000).wellFormed = false := by decide
theorem test_mr_65535_well_formed : (Instr.mr 65535).wellFormed = true := by decide

/-! ### Decoding: words written out from R96 (V160 to V179) -/

theorem test_decode_powmod : decode 0x00000001 = .ok .powmod := by rfl
theorem test_decode_fac2 : decode 0x00000002 = .ok .fac2 := by rfl
theorem test_decode_tdiv100 : decode 0x00000003 = .ok .tdiv100 := by rfl
theorem test_decode_tdiv1000 : decode 0x00000103 = .ok .tdiv1000 := by rfl
theorem test_decode_mr_0 : decode 0x00000004 = .ok (.mr 0) := by rfl
theorem test_decode_mr_65535 : decode 0xFFFF0004 = .ok (.mr 65535) := by rfl
theorem test_decode_mrd : decode 0x00000005 = .ok .mrd := by rfl
theorem test_decode_check100_2 : decode 0x00020006 = .ok (.check100 2) := by rfl
theorem test_decode_check1000_3 : decode 0x00030106 = .ok (.check1000 3) := by rfl
theorem test_decode_zero_illegal : decode 0x00000000 = .error .opcode := by rfl
theorem test_decode_opcode_7_illegal : decode 0x00000007 = .error .opcode := by rfl
theorem test_decode_powmod_table_illegal : decode 0x00000101 = .error .table := by rfl
theorem test_decode_powmod_acc_illegal : decode 0x00010001 = .error .accuracy := by rfl
theorem test_decode_tdiv_acc_illegal : decode 0x00010003 = .error .accuracy := by rfl
theorem test_decode_reserved_9_illegal : decode 0x00000203 = .error .reserved := by rfl
theorem test_decode_mr_table_illegal : decode 0x00000104 = .error .table := by rfl
theorem test_decode_mrd_acc_illegal : decode 0x00010005 = .error .accuracy := by rfl
theorem test_decode_reserved_15_illegal : decode 0x00018006 = .error .reserved := by rfl
theorem test_decode_ones_illegal : decode 0xFFFFFFFF = .error .reserved := by rfl
theorem test_encode_check1000_3 : encode (.check1000 3) = 0x00030106 := by decide
theorem test_table_word_of_mr : decodeTableWord 32 0x00050004 = some (.mr 5) := by rfl

/-! ### The prime ROM: the check values of R160 -/

theorem test_prime_ends : prime 0 = 2 ∧ prime 99 = 541 ∧ prime 100 = 547 ∧ prime 168 = 1009 ∧ prime 999 = 7919 := by decide
theorem test_prime_sums : (primeRows.map List.sum).sum = 3682913 ∧ (primeRows.map List.length) = List.replicate 50 20 := by
  decide

/-! ### One micro-step of each command -/

/-- V1, pass 3. -/
theorem test_powmod_pass :
    (nextOf (exec .powmod (inPhase .pmLoop { Work.reset with r := 4, b := 256, e := 3, m := 497 }))).map State.work =
      some { Work.reset with r := 30, b := 429, e := 1, m := 497 } := by decide

/-- V35: `M = 0`. -/
theorem test_powmod_zero_modulus : readAfter (exec .powmod (started 4 13 0)) 0x003 = some 0x106 := by decide

/-- V49: the exit with `A = 96`. -/
theorem test_fac2_exit :
    (nextOf (exec .fac2 (inPhase .f2Loop { Work.reset with fd := 3, fs := 5 }))).map
      (fun t => (t.R, t.S, t.phase, memRead t 0x003)) = some (3, 5, .idle, 2) := by decide

/-- V54: `A = 0`. -/
theorem test_fac2_zero : readAfter (exec .fac2 (started 0 0 0)) 0x003 = some 0x106 := by decide

/-- V68: 91 is rejected by 7 at `k = 3`. -/
theorem test_tdiv100_rejects :
    readAfter (exec .tdiv100 (inPhase .tdLoop { Work.reset with nn := 91, k := 3 })) 0x003 = some 0x12 := by decide

/-- V77: 299209 passes the short table. -/
theorem test_tdiv100_accepts :
    readAfter (exec .tdiv100 (inPhase .tdLoop { Work.reset with nn := 299209, k := 100 })) 0x003 = some 0x1A := by decide

/-- V77: 547 is the first entry beyond the short table and rejects 547 * 547. -/
theorem test_tdiv1000_rejects :
    readAfter (exec .tdiv1000 (inPhase .tdLoop { Work.reset with nn := 299209, k := 100 })) 0x003 = some 0x12 := by decide

/-- V71: a table prime is exempt. -/
theorem test_tdiv1000_exempts :
    (nextOf (exec .tdiv1000 (inPhase .tdLoop { Work.reset with nn := 547, k := 100 }))).map
      (fun t => (t.work.k, t.phase)) = some (101, .tdLoop) := by decide

/-- V110: from seed 1 the first witness on 97 is 6. -/
theorem test_mr_first_witness :
    (nextOf (exec (.mr 1) (inPhase .mrRound { Work.reset with nn := 97, d := 3, s := 5, w := 1, i := 1 }))).map State.work =
      some { Work.reset with nn := 97, d := 3, s := 5, w := 6, i := 0, r := 1, b := 6, e := 3, m := 97 } := by decide

/-- V137, with word and failure driven together: the failure wins (R186). -/
theorem test_mr_source_fails :
    (nextOf (exec (.mr 1) { inPhase .mrSeed Work.reset with rngReq := true, rng := [⟨true, true, 7⟩] })).map
      (fun t => (memRead t 0x003, t.phase, t.rngReq)) = some (0x206, .idle, false) := by decide

/-- V106: `A = 3`. -/
theorem test_mrd_three : readAfter (exec .mrd (inPhase .mrStart { Work.reset with nn := 3 })) 0x003 = some 0x106 := by decide

/-- V96: `2^45 mod 91 = 57` is neither 1 nor 90, and `s = 1` allows no squaring. -/
theorem test_mrd_first_test :
    (nextOf (exec .mrd (inPhase .mrCheckX { Work.reset with nn := 91, d := 45, s := 1, w := 2, x := 57, j := 9 }))).map
      (fun t => (t.work.j, t.work.w, t.phase)) = some (0, 2, .mrSq) := by decide

/-- V148: `A = 4` is rejected by the filter, not an error. -/
theorem test_check100_four :
    readAfter (exec (.check100 1) (inPhase .tdLoop { Work.reset with nn := 4, k := 0 })) 0x003 = some 0x12 := by decide

/-- V140: after the last entry CHECK goes on to the witness loop. -/
theorem test_check100_goes_on :
    (nextOf (exec (.check100 2) (inPhase .tdLoop { Work.reset with nn := 11, k := 100 }))).map State.phase =
      some .mrStart := by decide

/-- V152: 3 passes the filter and fails the precondition. -/
theorem test_check1000_three :
    readAfter (exec (.check1000 1) (inPhase .mrStart { Work.reset with nn := 3 })) 0x003 = some 0x106 := by decide

/-- V142, second round: `79^2 mod 97 = 33`, one squaring fewer left. -/
theorem test_check1000_squares :
    (nextOf (exec (.check1000 4) (inPhase .mrSq { Work.reset with nn := 97, x := 79, j := 4 }))).map
      (fun t => (t.work.x, t.work.j, t.phase)) = some (33, 3, .mrSq) := by decide

/-! ### The register port -/

/-- V180, V181, V187, V188. -/
theorem test_reset_reads :
    (memRead State.reset 0x000, memRead State.reset 0x001, memRead State.reset 0x004, memRead State.reset 0x3FF) =
      (0x4D454531, 2, 0, 0) := by decide

/-- V183, the second write. -/
theorem test_write_high_word :
    (memWrite { State.reset with A := 0x89ABCDEF } 0x081 0x01234567).A = 0x0123456789ABCDEF := by decide

/-- V184: word 2 of a window of two words. -/
theorem test_write_beyond_window : memWrite State.reset 0x082 0xFFFFFFFF = State.reset := by decide

/-- V189. -/
theorem test_write_ctrl : memRead (memWrite State.reset 0x002 0xFFFFFFFD) 0x002 = 1 := by decide

/-- V190, V191, V192, from `STATUS = 0x3A`. -/
theorem test_write_status :
    let s : State := { State.reset with
      status := { busy := false, done := true, err := false, verdict := true, vvalid := true, wign := true, errcode := .none } }
    (memRead s 0x003, memRead (memWrite s 0x003 0x02) 0x003, memRead (memWrite s 0x003 0x20) 0x003,
      memRead (memWrite s 0x003 0xFFFFFFDD) 0x003) = (0x3A, 0x38, 0x1A, 0x3A) := by decide

/-- V193. -/
theorem test_write_while_busy :
    memWrite (started 1 2 3) 0x100 5 = { started 1 2 3 with status := Status.running true } := by decide

/-- V170: the all-zero word. -/
theorem test_illegal_word :
    (memRead (memWrite State.reset 0x004 0) 0x003, (memWrite State.reset 0x004 0).phase) = (0x306, .idle) := by decide

/-- P6: the soft reset of a waiting command. -/
theorem test_soft_reset :
    memWrite { inPhase .mrSeed Work.reset with A := 97, E := 3, ie := true, rngReq := true } 0x002 2 = State.reset := by
  decide

/-- The first step after a reset with POWMOD placed runs its START action (`M = 0`). -/
theorem test_fetch_word : readAfter (step (State.reset.withFetchWord 32 1)) 0x003 = some 0x106 := by decide

/-! ### Witnesses: the hypotheses of each statement can be met together -/

/-- `W = 64`, idle, with `events` to come. -/
def idleWith (events : List Event) : State := { State.resetFor 2 with events := events }

/-- `W = 64`, a MR command running, with `events` to come. -/
def busyWith (events : List Event) : State := { started 97 0 0 with lastcmd := 0x00010004, events := events }

theorem width_ok : (State.resetFor 2).WidthOk := by unfold State.WidthOk; decide

/-- The narrowest and the widest block. -/
theorem width_bounds : (State.resetFor 2).WidthOk ∧ (State.resetFor 128).WidthOk := by unfold State.WidthOk; decide

theorem witness_DecodeOfEncode : (Instr.check1000 65535).wellFormed = true := by decide
theorem witness_EncodeOfDecode : decode 0x00010106 = .ok (.check1000 1) := by rfl
theorem witness_FieldsOfCommandWord : decode 0xFFFF0106 = .ok (.check1000 65535) := by rfl
theorem witness_HostReadChangesNothing : (idleWith [.read 0x3FF]).events = .read 0x3FF :: [] := by decide

/-- Reserved indices at both ends, a window's last word and the first reserved word after it. -/
theorem witness_PortMapReads :
    (State.resetFor 2).WidthOk ∧ (0x007 ≤ (0x07F : PortIdx).toNat ∧ (0x07F : PortIdx).toNat < 0x080) ∧
    1 < (State.resetFor 2).nw ∧ ((State.resetFor 2).nw ≤ 2 ∧ 127 < 128) ∧
    0x200 + (State.resetFor 2).nw ≤ (0x3FF : PortIdx).toNat := ⟨width_ok, by decide⟩

theorem witness_OperandWrite_idle :
    (idleWith [.write 0x081 7]).WidthOk ∧ 1 < (idleWith [.write 0x081 7]).nw ∧
    (idleWith [.write 0x081 7]).events = .write (BitVec.ofNat 10 (BigReg.a.base + 1)) 7 :: [] ∧
    (idleWith [.write 0x081 7]).status.busy = false := ⟨width_ok, by decide⟩
theorem witness_OperandWrite_busy :
    (busyWith [.write 0x180 7]).WidthOk ∧ 0 < (busyWith [.write 0x180 7]).nw ∧
    (busyWith [.write 0x180 7]).events = .write (BitVec.ofNat 10 (BigReg.m.base + 0)) 7 :: [] ∧
    (busyWith [.write 0x180 7]).status.busy = true := ⟨width_ok, by decide⟩

/-- The first reserved word after the `A` window, and `R` word 1. -/
theorem witness_ReadOnlyAndReservedWrite :
    (idleWith [.write 0x082 7]).WidthOk ∧ (idleWith [.write 0x082 7]).events = .write 0x082 7 :: [] ∧
    (∀ idx ∈ ([0x082, 0x201] : List PortIdx), idx.toNat ≠ 0x002 ∧ idx.toNat ≠ 0x003 ∧ idx.toNat ≠ 0x004 ∧
      ¬ (0x080 ≤ idx.toNat ∧ idx.toNat < 0x080 + 2) ∧ ¬ (0x100 ≤ idx.toNat ∧ idx.toNat < 0x100 + 2) ∧
      ¬ (0x180 ≤ idx.toNat ∧ idx.toNat < 0x180 + 2)) ∧
    ¬ (0x200 ≤ (0x082 : PortIdx).toNat ∧ (0x082 : PortIdx).toNat < 0x200 + 2) := ⟨width_ok, by decide⟩

theorem witness_WritesWhileBusy :
    (busyWith [.write 0x101 7]).WidthOk ∧ (busyWith [.write 0x101 7]).status.busy = true ∧
    (busyWith [.write 0x101 7]).events = .write 0x101 7 :: [] ∧
    (0x100 ≤ (0x101 : PortIdx).toNat ∧ (0x101 : PortIdx).toNat < 0x100 + 2) ∧
    (0x100 + 2 ≤ (0x102 : PortIdx).toNat ∧ (0x102 : PortIdx).toNat < 0x180) ∧
    (1 : Word).getLsbD 1 = false ∧ (2 : Word).getLsbD 1 = true := ⟨width_ok, by decide⟩

theorem witness_ControlAndStatusWrites :
    (idleWith [.write 0x002 1]).events = .write 0x002 1 :: [] ∧ (1 : Word).getLsbD 1 = false ∧
    (idleWith [.write 0x003 0x22]).events = .write 0x003 0x22 :: [] := by decide

theorem witness_LoadAndReadBigRegisters :
    (idleWith (ldbig 2 .e (2 ^ 64 - 1))).WidthOk ∧ (idleWith (ldbig 2 .e (2 ^ 64 - 1))).status.busy = false ∧
    2 ^ 64 - 1 < 2 ^ (idleWith (ldbig 2 .e (2 ^ 64 - 1))).W ∧ (idleWith []).R < 2 ^ (idleWith []).W ∧
    ((idleWith []).A < 2 ^ (idleWith []).W ∧ (idleWith []).E < 2 ^ (idleWith []).W ∧ (idleWith []).M < 2 ^ (idleWith []).W) ∧
    (idleWith (ldbig 2 .e (2 ^ 64 - 1))).events = ldbig (idleWith []).nw .e (2 ^ 64 - 1) ++ [] := ⟨width_ok, by decide⟩

theorem witness_AcceptanceOfCommand :
    ((idleWith [.write 0x004 1]).events = .write 0x004 1 :: [] ∧ (idleWith [.write 0x004 1]).status.busy = false ∧
      legal 1 = true) ∧
    ((busyWith [.write 0x004 5]).events = .write 0x004 5 :: [] ∧ (busyWith [.write 0x004 5]).status.busy = true) := by
  decide
theorem witness_IllegalWords :
    legal 0x00010001 = false ∧ (idleWith [.write 0x004 0x00010001]).status.busy = false ∧
    (idleWith [.write 0x004 0x00010001]).events = .write 0x004 0x00010001 :: [] := by decide

theorem witness_ResetLeaves :
    (busyWith [.rst]).events = .rst :: [] ∧ (busyWith [.write 0x002 3]).events = .write 0x002 3 :: [] ∧
    (3 : Word).getLsbD 1 = true := by decide
theorem witness_ResetClearsThePort :
    resetsNext (busyWith [.rst]) ∧ nextOf (step (busyWith [.rst])) = some (State.resetFor 2) :=
  ⟨.inl ⟨[], rfl⟩, by decide⟩

/-- A commit with `IE = 1`, and each of the events that lower the line. -/
theorem witness_InterruptLine :
    (inPhase .pmLoop Work.reset).status.busy = true ∧
    (nextOf (exec .powmod (inPhase .pmLoop Work.reset))).map (fun t => t.status.busy) = some false ∧
    (idleWith [.write 0x003 2]).events = .write 0x003 2 :: [] ∧ (2 : Word).getLsbD 1 = true ∧
    legal 2 = true ∧ (0 : Word).getLsbD 0 = false := by decide

theorem witness_StepRunsDecodedCommand :
    (busyWith []).status.busy = true ∧ decode (busyWith []).lastcmd = .ok (.mr 1) ∧ (busyWith []).events = [] ∧
    (busyWith [.engine]).events = .engine :: [] ∧ (busyWith [.wait]).events = .wait :: [] ∧
    (busyWith [.wait]).status.done = false := ⟨rfl, rfl, by decide⟩

/-- A poll after the commit of an accepting test, and a poll with no command accepted. -/
theorem witness_StepRunsDecodedCommand_poll :
    (({ idleWith [.wait] with status := Status.ofVerdict false true }).events = .wait :: [] ∧
      ({ idleWith [.wait] with status := Status.ofVerdict false true }).status.done = true ∧
      StatusOk (Status.ofVerdict false true)) ∧
    (idleWith [.wait]).events = .wait :: [] ∧ (idleWith [.wait]).status.busy = false ∧
    (idleWith [.wait]).status.done = false := by
  unfold StatusOk
  decide

/-- V68: the host's last poll reads 0x12 and the wait is over. -/
theorem test_poll_ends_wait :
    (nextOf (step { idleWith [.wait] with status := Status.ofVerdict false false })).map (fun t => (t.rdata, t.events)) =
      some (0x12, []) := by decide
theorem witness_PlacedWordRunsNext : decodeTableWord 32 0x00050004 = some (.mr 5) := by rfl
theorem witness_IdleEngineRests : (idleWith [.engine]).status.busy = false ∧ (idleWith []).events = [] := by decide
theorem witness_OnlyAcceptanceStartsTheEngine :
    (idleWith [.write 0x004 1]).status.busy = false ∧
    (nextOf (step (idleWith [.write 0x004 1]))).map (fun t => t.status.busy) = some true := by decide
theorem witness_BusyStepKeepsOperands :
    (busyWith []).status.busy = true ∧ ¬ resetsNext (busyWith []) ∧
    (nextOf (step (busyWith []))).map State.phase = some .mrStart := by
  refine ⟨rfl, ?_, by decide⟩
  rintro (⟨rest, h⟩ | ⟨v, rest, h, -⟩) <;> exact absurd h (by simp [busyWith])

/-! The micro-step statements: a state of each phase, and each side of each test. -/

theorem witness_PowmodStart : (started 4 13 0).phase = .start ∧ (started 4 13 0).M = 0 ∧ (started 4 13 497).M ≠ 0 := by decide
theorem witness_FactorisationStart : (started 0 0 0).phase = .start ∧ (started 0 0 0).A = 0 ∧ (started 96 0 0).A ≠ 0 := by
  decide
theorem witness_TestStart : (started 97 0 0).phase = .start := by decide
theorem witness_ExponentiationMicroStep :
    (inPhase .pmLoop { Work.reset with e := 13 }).phase = .pmLoop ∧
    (inPhase .pmLoop { Work.reset with e := 13 }).work.e % 2 = 1 ∧
    ((inPhase .pmLoop { Work.reset with e := 6 }).work.e ≠ 0 ∧ (inPhase .pmLoop { Work.reset with e := 6 }).work.e % 2 = 0) ∧
    (inPhase .pmLoop Work.reset).work.e = 0 ∧ (inPhase .pmLoop Work.reset).ret = .cmd ∧
    ({ inPhase .pmLoop Work.reset with ret := .mr }).ret = .mr := by decide
theorem witness_FactorisationMicroStep :
    (inPhase .f2Loop { Work.reset with fd := 96 }).phase = .f2Loop ∧
    (inPhase .f2Loop { Work.reset with fd := 96 }).work.fd % 2 = 0 ∧
    (inPhase .f2Loop { Work.reset with fd := 3 }).work.fd % 2 = 1 ∧ (inPhase .f2Loop Work.reset).ret = .cmd ∧
    ({ inPhase .f2Loop Work.reset with ret := .mr }).ret = .mr := by decide
theorem witness_TrialDivisionMicroStep :
    (inPhase .tdLoop { Work.reset with nn := 91, k := 100 }).phase = .tdLoop ∧
    (inPhase .tdLoop { Work.reset with nn := 91, k := 100 }).work.k = 100 ∧
    ((3 : Nat) ≠ 100 ∧ 91 % prime 3 = 0 ∧ 91 ≠ prime 3) ∧ ((4 : Nat) ≠ 100 ∧ ¬ (97 % prime 4 = 0 ∧ 97 ≠ prime 4)) := by decide
theorem witness_WitnessLoopStart :
    (inPhase .mrStart { Work.reset with nn := 4 }).phase = .mrStart ∧
    (inPhase .mrStart { Work.reset with nn := 4 }).work.nn ≤ 4 ∧ 3 < (inPhase .mrStart { Work.reset with nn := 4 }).work.nn := by
  decide
theorem witness_SeedMicroStep :
    ({ inPhase .mrSeed Work.reset with rng := [⟨true, false, 1⟩] }).phase = .mrSeed ∧
    ({ inPhase .mrSeed Work.reset with rng := [⟨true, false, 1⟩] }).rng = ⟨true, false, 1⟩ :: [] ∧
    (⟨false, false, 0⟩ : RngPins).silent := ⟨rfl, rfl, rfl, rfl⟩
theorem witness_WitnessBoundMicroStep : (inPhase .mrdBound { Work.reset with nn := 97 }).phase = .mrdBound := by decide
theorem witness_RoundMicroStep :
    (inPhase .mrRound { Work.reset with i := 1, w := 2, wb := 40 }).phase = .mrRound ∧
    (inPhase .mrRound { Work.reset with i := 1, w := 2, wb := 40 }).work.i ≠ 0 ∧
    (inPhase .mrRound { Work.reset with i := 1, w := 2, wb := 40 }).work.w ≤ 40 ∧
    (inPhase .mrRound { Work.reset with w := 41, wb := 40 }).work.wb < 41 := by decide
theorem witness_FirstTestMicroStep :
    (inPhase .mrCheckX { Work.reset with nn := 91, x := 90 }).phase = .mrCheckX ∧
    (inPhase .mrCheckX { Work.reset with nn := 91, x := 90 }).work.x = 91 - 1 ∧ ((57 : Nat) ≠ 1 ∧ (57 : Nat) ≠ 91 - 1) := by
  decide
theorem witness_SquaringMicroStep :
    (inPhase .mrSq { Work.reset with nn := 97, x := 22, j := 1 }).phase = .mrSq ∧
    (inPhase .mrSq { Work.reset with nn := 97, x := 22, j := 1 }).work.j ≠ 0 ∧ (22 * 22) % 97 = 97 - 1 ∧
    (8 * 8) % 97 ≠ 97 - 1 := by decide

/-! Frames, whole commands, invariants. -/

theorem started_ok (A E M : Nat) : Started (started A E M) := ⟨rfl, rfl, rfl⟩

theorem witness_CommandsArePrecise :
    (started 4 13 497).status = Status.running (started 4 13 497).status.wign ∧
    nextOf (exec .powmod (started 4 13 497)) =
      some { started 4 13 497 with work := { Work.reset with r := 1, b := 4, e := 13, m := 497 }, phase := .pmLoop } := by
  decide

/-- A running command in a state of the invariant: MR on 97, just accepted. -/
theorem witness_ResultRegistersOfEachCommand :
    Inv (busyWith []) ∧ (busyWith []).status.busy = true ∧ decode (busyWith []).lastcmd = .ok (.mr 1) ∧
    (nextOf (exec (.mr 1) (busyWith []))).map State.phase = some .mrStart := by
  refine ⟨⟨width_ok, ?_, ?_, ?_, fun _ => ⟨.mr 1, rfl, trivial⟩⟩, rfl, rfl, by decide⟩
  · unfold RangeOk; decide
  · unfold StatusOk; decide
  · unfold SequencerOk; decide

theorem witness_PowmodComputes :
    Started (started 4 13 0) ∧ (started 4 13 0).M = 0 ∧ Started (started 4 13 497) ∧ (started 4 13 497).M ≠ 0 :=
  ⟨started_ok _ _ _, rfl, started_ok _ _ _, by decide⟩
theorem witness_FactorisationComputes :
    Started (started (2 ^ 63) 0 0) ∧ (started (2 ^ 63) 0 0).WidthOk ∧
    (started (2 ^ 63) 0 0).A < 2 ^ (started (2 ^ 63) 0 0).W ∧ (started (2 ^ 63) 0 0).A ≠ 0 ∧ (started 0 0 0).A = 0 :=
  ⟨started_ok _ _ _, width_ok, by decide⟩
theorem witness_TrialDivisionComputes : Started (started 0 0 0) := started_ok _ _ _
theorem witness_ProbabilisticTestComputes :
    Started { started 5 0 0 with rng := [⟨false, false, 0⟩, ⟨true, false, 7⟩] } ∧
    ({ started 5 0 0 with rng := [⟨false, false, 0⟩, ⟨true, false, 7⟩] }).WidthOk ∧ 4 < (started 5 0 0).A ∧
    (started 5 0 0).A < 2 ^ (started 5 0 0).W ∧ (∀ x ∈ [(⟨false, false, 0⟩ : RngPins)], x.silent) ∧
    (⟨true, false, 7⟩ : RngPins).answers ∧
    ({ started 5 0 0 with rng := [⟨false, false, 0⟩, ⟨true, false, 7⟩] }).rng =
      [⟨false, false, 0⟩] ++ ⟨true, false, 7⟩ :: [] ∧ (started 4 0 0).A ≤ 4 :=
  ⟨⟨rfl, rfl, rfl⟩, width_ok, by decide, by decide, by simp [RngPins.silent], .inl rfl, rfl, by decide⟩
theorem witness_DeterministicTestComputes :
    Started (started 4 0 0) ∧ (started 4 0 0).WidthOk ∧ (started 4 0 0).A < 2 ^ (started 4 0 0).W :=
  ⟨started_ok _ _ _, width_ok, by decide⟩

/-- 0 is rejected; 3 is accepted and below the precondition. -/
theorem witness_CandidateCheckComputes :
    Started (started 0 0 0) ∧ (started 0 0 0).WidthOk ∧ (started 0 0 0).A < 2 ^ (started 0 0 0).W ∧
    tdivF (started 0 0 0).A 100 = false ∧ (tdivF (started 3 0 0).A 100 = true ∧ (started 3 0 0).A ≤ 4) :=
  ⟨started_ok _ _ _, width_ok, by decide, by decide +kernel, by decide +kernel⟩

/-- 5 is accepted and tested: the source is silent once and then fails. -/
theorem witness_CandidateCheckComputes_tested :
    Started { started 5 0 0 with rng := [⟨false, false, 0⟩, ⟨false, true, 0⟩] } ∧
    ({ started 5 0 0 with rng := [⟨false, false, 0⟩, ⟨false, true, 0⟩] }).WidthOk ∧
    (started 5 0 0).A < 2 ^ (started 5 0 0).W ∧ tdivF (started 5 0 0).A 100 = true ∧ 4 < (started 5 0 0).A ∧
    (∀ x ∈ [(⟨false, false, 0⟩ : RngPins)], x.silent) ∧ (⟨false, true, 0⟩ : RngPins).answers ∧
    ({ started 5 0 0 with rng := [⟨false, false, 0⟩, ⟨false, true, 0⟩] }).rng =
      [⟨false, false, 0⟩] ++ ⟨false, true, 0⟩ :: [] :=
  ⟨⟨rfl, rfl, rfl⟩, width_ok, by decide, by decide +kernel, by decide, by simp [RngPins.silent], .inr rfl, rfl⟩

/-- TDIV100 on 91 rejects; TDIV100 on 3 accepts and MR on 3 ends in an error. -/
theorem witness_CheckIsFilterThenTest :
    Started (started 91 0 0) ∧
    (nextOf (execN 5 .tdiv100 (started 91 0 0))).map (fun t => (t.phase, t.status.verdict)) = some (.idle, false) ∧
    (nextOf (execN 102 .tdiv100 (started 3 0 0))).map (fun t => (t.phase, t.status.verdict)) = some (.idle, true) ∧
    (nextOf (execN 2 (.mr 1) (started 3 0 0))).map State.phase = some .idle :=
  ⟨started_ok _ _ _, by decide +kernel, by decide +kernel, by decide⟩

/-- The three phases whose statements also name the invariant: POWMOD, FAC2 and MR on 97 under way. -/
def running (cw : Word) (p : Phase) (rt : Ret) (w : Work) : State :=
  { started 96 0 0 with lastcmd := cw, phase := p, ret := rt, work := w }

/-- The invariant of a running command from its decoded word and its phase's clause, the rest being closed facts. -/
theorem running_inv {cw : Word} {p : Phase} {rt : Ret} {w : Work} (i : Instr) (hd : decode cw = .ok i)
    (hr : RangeOk (running cw p rt w)) (hp : PhaseOk (cmdFields i) (running cw p rt w)) (hs : SequencerOk (running cw p rt w)) :
    Inv (running cw p rt w) :=
  ⟨width_ok, hr, witness_ResultRegistersOfEachCommand.1.2.2.1, hs, fun _ => ⟨i, hd, hp⟩⟩

theorem witness_ExponentiationMicroStep_inv :
    Inv (running 1 .pmLoop .cmd { Work.reset with r := 1, b := 4, e := 13, m := 497 }) :=
  running_inv .powmod rfl (by unfold RangeOk; decide) ⟨by decide, rfl⟩ (by unfold SequencerOk; decide)
theorem witness_FactorisationMicroStep_inv :
    Inv (running 2 .f2Loop .cmd { Work.reset with fd := 48, fs := 1 }) :=
  running_inv .fac2 rfl (by unfold RangeOk; decide) ⟨by decide, rfl, rfl⟩ (by unfold SequencerOk; decide)
theorem witness_RoundMicroStep_inv :
    Inv (running 0x00010004 .mrRound .mr { Work.reset with nn := 5, d := 1, s := 2, w := 2, i := 1 }) ∧
    decode 0x00010004 = .ok (.mr 1) :=
  ⟨running_inv (.mr 1) rfl (by unfold RangeOk; decide)
    ⟨⟨⟨by decide, by decide⟩, by decide⟩, fun h => absurd h (by decide)⟩ (by unfold SequencerOk; decide), rfl⟩

theorem witness_WitnessUpdate : (4 : Nat) < 5 := by decide
theorem witness_PrimesAreAccepted : Nat.Prime 5 ∧ 4 < 5 ∧ (⟨true, false, 7⟩ : RngPins).fail = false :=
  ⟨by norm_num, by decide, rfl⟩
theorem witness_ReferenceBoundIsAtLeastThree : ∃ v, Config.IsLnbRef 4 v := ⟨_, rfl⟩
theorem witness_ResetMeetsTheInvariant : 2 ≤ 2 ∧ 2 ≤ 128 := by decide
theorem witness_StepKeepsTheInvariant :
    Inv (busyWith []) ∧ (nextOf (step (busyWith []))).map State.phase = some .mrStart :=
  ⟨witness_ResultRegistersOfEachCommand.1, by decide⟩
theorem witness_MachineNeverStops : Inv (busyWith []) := witness_ResultRegistersOfEachCommand.1
theorem witness_RegistersStayInRange :
    Inv (busyWith []) ∧ (nextOf (core.run 2 (busyWith []))).map (fun t => t.work.fd) = some 96 :=
  ⟨witness_ResultRegistersOfEachCommand.1, by decide⟩
theorem witness_StepKeepsStatusConsistent : StatusOk (busyWith []).status := witness_ResultRegistersOfEachCommand.1.2.2.1
theorem witness_StepKeepsSequencerConsistent : SequencerOk (busyWith []) := witness_ResultRegistersOfEachCommand.1.2.2.2.1
theorem witness_WorkingRegistersReachNoResult : Started (started 97 0 0) := started_ok _ _ _

end Sys2Proof.Tests
end

section
/-! PROOF. The part of `Inv` that is inductive by itself: the width, the ranges (R44), and what the command under way has in
its phase. `STATUS` and `rng_req` are not needed for it. -/

namespace Sys2Proof.Machine

/-! ### The fields of a decoded command word (R91) -/

theorem formatN_ok {t : Bool} {acc : Nat} {i j : Instr} (h : formatN t acc i = .ok j) :
    j = i ∧ t = false ∧ acc = 0 := by grind [formatN]
theorem formatT_ok {t : Bool} {acc : Nat} {short long j : Instr} (h : formatT t acc short long = .ok j) :
    (j = if t then long else short) ∧ acc = 0 := by grind [formatT]
theorem formatA_ok {t : Bool} {i j : Instr} (h : formatA t i = .ok j) : j = i ∧ t = false := by grind [formatA]
theorem formatTA_ok {t : Bool} {short long j : Instr} (h : formatTA t short long = .ok j) :
    j = if t then long else short := by grind [formatTA]

/-- The fields of a decoded command are the fields of its word. -/
theorem cmdFields_of_decode {cw : Word} {i : Instr} (h : decode cw = .ok i) :
    cmdFields i = { op := opcodeField cw, tsel := tableField cw, acc := accField cw } := by
  unfold decode at h
  split at h
  case isFalse => cases h
  split at h
  case h_1 hop => obtain ⟨rfl, ht, ha⟩ := formatN_ok h; rw [hop, ht, ha]; rfl
  case h_2 hop => obtain ⟨rfl, ht, ha⟩ := formatN_ok h; rw [hop, ht, ha]; rfl
  case h_3 hop => obtain ⟨rfl, ha⟩ := formatT_ok h; rw [hop, ha]; cases tableField cw <;> rfl
  case h_4 hop => obtain ⟨rfl, ht⟩ := formatA_ok h; rw [hop, ht]; rfl
  case h_5 hop => obtain ⟨rfl, ht, ha⟩ := formatN_ok h; rw [hop, ht, ha]; rfl
  case h_6 hop => obtain rfl := formatTA_ok h; rw [hop]; cases tableField cw <;> rfl
  case h_7 => cases h

/-- The accuracy of a decoded command is 16 bits wide (R93). -/
theorem acc_lt_of_decode {cw : Word} {i : Instr} (h : decode cw = .ok i) : (cmdFields i).acc < 2 ^ 16 := by
  rw [cmdFields_of_decode h]
  exact BitVec.isLt _

theorem klim_le (f : CmdFields) : f.klim ≤ 1000 := by
  unfold CmdFields.klim
  split <;> decide

/-! ### Widths (R6) -/

theorem State.WidthOk.word_lt {s : State} (hw : s.WidthOk) {v : Nat} (hv : v < 2 ^ 32) : v < 2 ^ s.W :=
  hv.trans_le (Nat.pow_le_pow_right two_pos (by have := hw.1; unfold State.W; omega))

/-- A shift count below the width fits the 32-bit counters. -/
theorem State.WidthOk.count_lt {s : State} (hw : s.WidthOk) {n : Nat} (hn : n < s.W) : n < 2 ^ 32 := by
  have := hw.2
  unfold State.W at hn
  omega

/-! ### The ranges by name (R44) -/

/-- `RangeOk` with a name for each register. -/
structure Ranges (u : State) : Prop where
  A  : u.A < 2 ^ u.W
  E  : u.E < 2 ^ u.W
  M  : u.M < 2 ^ u.W
  R  : u.R < 2 ^ u.W
  nn : u.work.nn < 2 ^ u.W
  r  : u.work.r < 2 ^ u.W
  b  : u.work.b < 2 ^ u.W
  e  : u.work.e < 2 ^ u.W
  m  : u.work.m < 2 ^ u.W
  fd : u.work.fd < 2 ^ u.W
  d  : u.work.d < 2 ^ u.W
  w  : u.work.w < 2 ^ u.W
  x  : u.work.x < 2 ^ u.W
  wb : u.work.wb < 2 ^ u.W
  fs : u.work.fs < 2 ^ 32
  s  : u.work.s < 2 ^ 32
  j  : u.work.j < 2 ^ 32
  i  : u.work.i < 2 ^ 16
  k  : u.work.k ≤ 1000

theorem rangeOk_iff {s : State} : RangeOk s ↔ Ranges s := by
  constructor
  · rintro ⟨hA, hE, hM, hR, hnn, hr, hb, he, hm, hfd, hd, hw, hx, hwb, hfs, hs, hj, hi, hk⟩
    exact ⟨hA, hE, hM, hR, hnn, hr, hb, he, hm, hfd, hd, hw, hx, hwb, hfs, hs, hj, hi, hk⟩
  · rintro ⟨hA, hE, hM, hR, hnn, hr, hb, he, hm, hfd, hd, hw, hx, hwb, hfs, hs, hj, hi, hk⟩
    exact ⟨hA, hE, hM, hR, hnn, hr, hb, he, hm, hfd, hd, hw, hx, hwb, hfs, hs, hj, hi, hk⟩

/-! ### What `PhaseOk` says in each phase -/

section
variable {f : CmdFields} {s : State}

theorem phaseOk_start (h : s.phase = .start) : PhaseOk f s ↔ True := by simp only [PhaseOk, h]
theorem phaseOk_pmLoop_cmd (h : s.phase = .pmLoop) (hret : s.ret = .cmd) :
    PhaseOk f s ↔ s.work.m ≠ 0 ∧ f.op = 0x01 := by simp only [PhaseOk, h, hret]
theorem phaseOk_pmLoop_mr (h : s.phase = .pmLoop) (hret : s.ret = .mr) :
    PhaseOk f s ↔ s.work.m ≠ 0 ∧ RoundOk f s ∧ s.work.m = s.work.nn := by simp only [PhaseOk, h, hret]
theorem phaseOk_f2Loop_cmd (h : s.phase = .f2Loop) (hret : s.ret = .cmd) :
    PhaseOk f s ↔ s.work.fd ≠ 0 ∧ f.op = 0x02 ∧ s.work.fd * 2 ^ s.work.fs = s.A := by simp only [PhaseOk, h, hret]
theorem phaseOk_f2Loop_mr (h : s.phase = .f2Loop) (hret : s.ret = .mr) :
    PhaseOk f s ↔ s.work.fd ≠ 0 ∧ TestOk f s ∧ s.work.fd * 2 ^ s.work.fs = s.work.nn - 1 := by
  simp only [PhaseOk, h, hret]
theorem phaseOk_tdLoop (h : s.phase = .tdLoop) :
    PhaseOk f s ↔ (f.op = 0x03 ∨ f.op = 0x06) ∧ s.work.k ≤ f.klim := by simp only [PhaseOk, h]
theorem phaseOk_mrStart (h : s.phase = .mrStart) :
    PhaseOk f s ↔ f.op = 0x04 ∨ f.op = 0x05 ∨ f.op = 0x06 := by simp only [PhaseOk, h]
theorem phaseOk_mrSeed (h : s.phase = .mrSeed) : PhaseOk f s ↔ FactoredOk f s ∧ f.mode = .prob := by
  simp only [PhaseOk, h]
theorem phaseOk_mrdBound (h : s.phase = .mrdBound) : PhaseOk f s ↔ FactoredOk f s ∧ f.mode = .det := by
  simp only [PhaseOk, h]
theorem phaseOk_mrRound (h : s.phase = .mrRound) :
    PhaseOk f s ↔ FactoredOk f s ∧ (f.mode = .det → s.work.w ≤ s.work.nn ∧ s.work.wb ≤ s.work.nn - 1) := by
  simp only [PhaseOk, h]
theorem phaseOk_mrCheckX (h : s.phase = .mrCheckX) : PhaseOk f s ↔ RoundOk f s := by simp only [PhaseOk, h]
theorem phaseOk_mrSq (h : s.phase = .mrSq) : PhaseOk f s ↔ RoundOk f s ∧ s.work.j ≤ s.work.s := by
  simp only [PhaseOk, h]

/-- The probabilistic test runs on operands above 4 only (R183). -/
theorem TestOk.four_lt (h : TestOk f s) (hm : f.mode = .prob) : 4 < s.work.nn := by simpa [hm, Mode.limit] using h.2

/-- The witness loop runs on operands above 3 only (R183). -/
theorem TestOk.three_lt (h : TestOk f s) : 3 < s.work.nn := by
  have hlim : 3 ≤ f.mode.limit := by cases f.mode <;> decide
  exact hlim.trans_lt h.2

end

/-! ### A micro-step keeps the ranges and what holds in its phase -/

/-- `t` may follow `s` in the command with fields `f`: same block and command, every register in its range, and the phase's
clause in force unless the command has ended. -/
structure MicroOk (f : CmdFields) (s t : State) : Prop where
  nw      : t.nw = s.nw
  lastcmd : t.lastcmd = s.lastcmd
  ranges  : Ranges t
  phase   : t.status.busy = true → PhaseOk f t

section
variable {f : CmdFields} {s : State}

theorem microOk_completeErr (hr : Ranges s) (c : ErrCode) : MicroOk f s (completeErr c s) :=
  ⟨rfl, rfl, { hr with }, nofun⟩

theorem microOk_completeOk_big (hr : Ranges s) {v : Nat} (hv : v < 2 ^ s.W) : MicroOk f s (completeOk (.big v) s) :=
  ⟨rfl, rfl, { hr with R := hv }, nofun⟩

theorem microOk_completeOk_factors (hr : Ranges s) (u : Nat) {v : Nat} (hv : v < 2 ^ s.W) :
    MicroOk f s (completeOk (.factors u v) s) :=
  ⟨rfl, rfl, { hr with R := hv }, nofun⟩

theorem microOk_completeOk_verdict (hr : Ranges s) (q : Bool) : MicroOk f s (completeOk (.verdict q) s) :=
  ⟨rfl, rfl, { hr with }, nofun⟩

/-! #### Exponentiation (R142, R143) -/

/-- A pass reduces modulo `m`, so `r` and `b` stay in range. -/
theorem Ranges.pmPass (hr : Ranges s) (hm : s.work.m ≠ 0) :
    Ranges { s with work := pmPass s.work, phase := .pmLoop } := by
  have hmod (v : Nat) : v % s.work.m < 2 ^ s.W := (Nat.mod_lt v (Nat.pos_of_ne_zero hm)).trans hr.m
  refine { hr with r := ?_, b := hmod _, e := (Nat.div_le_self _ _).trans_lt hr.e }
  show (if s.work.e % 2 = 1 then s.work.r * s.work.b % s.work.m else s.work.r) < 2 ^ s.W
  split
  · exact hmod _
  · exact hr.r

theorem pmLoop_microOk (hr : Ranges s) (hph : s.phase = .pmLoop) (hp : PhaseOk f s) : MicroOk f s (pmLoop s) := by
  unfold pmLoop
  cases hret : s.ret with
  | cmd =>
    obtain ⟨hm, hop⟩ := (phaseOk_pmLoop_cmd hph hret).1 hp
    split
    · exact microOk_completeOk_big hr hr.r
    · exact ⟨rfl, rfl, { hr.pmPass hm with }, fun _ => (phaseOk_pmLoop_cmd rfl rfl).2 ⟨hm, hop⟩⟩
  | mr =>
    obtain ⟨hm, hround, hmn⟩ := (phaseOk_pmLoop_mr hph hret).1 hp
    split
    · exact ⟨rfl, rfl, { hr with x := hr.r }, fun _ => (phaseOk_mrCheckX rfl).2 hround⟩
    · exact ⟨rfl, rfl, { hr.pmPass hm with }, fun _ => (phaseOk_pmLoop_mr rfl rfl).2 ⟨hm, hround, hmn⟩⟩

/-! #### Factorisation (R147, R148) -/

theorem half_mul_two_pow_succ {a : Nat} (h : a % 2 = 0) (n : Nat) : a / 2 * 2 ^ (n + 1) = a * 2 ^ n := by
  rw [pow_succ', ← mul_assoc, Nat.div_mul_cancel (Nat.dvd_of_mod_eq_zero h)]

/-- A number below `2 ^ W` is not shifted `W` times. -/
theorem shifts_lt_width {a n v W : Nat} (ha : a ≠ 0) (h : a * 2 ^ n = v) (hv : v < 2 ^ W) : n < W :=
  (Nat.pow_lt_pow_iff_right one_lt_two).1 ((Nat.le_mul_of_pos_left _ (Nat.pos_of_ne_zero ha)).trans_lt (h ▸ hv))

/-- The count of a shift fits 32 bits, the number factored being below `2 ^ W`. -/
theorem Ranges.shift (hr : Ranges s) (hw : s.WidthOk) {v : Nat} (hfd : s.work.fd / 2 ≠ 0)
    (h : s.work.fd / 2 * 2 ^ (s.work.fs + 1) = v) (hv : v < 2 ^ s.W) :
    Ranges { s with work := { s.work with fd := s.work.fd / 2, fs := s.work.fs + 1 }, phase := .f2Loop } :=
  { hr with fd := (Nat.div_le_self _ _).trans_lt hr.fd, fs := hw.count_lt (shifts_lt_width hfd h hv) }

theorem f2Loop_microOk (hr : Ranges s) (hw : s.WidthOk) (hph : s.phase = .f2Loop) (hp : PhaseOk f s) :
    MicroOk f s (f2Loop f s) := by
  unfold f2Loop
  cases hret : s.ret with
  | cmd =>
    obtain ⟨hfd, hop, hprod⟩ := (phaseOk_f2Loop_cmd hph hret).1 hp
    split
    next heven =>
      have hfd' : s.work.fd / 2 ≠ 0 := by omega
      have hprod' := (half_mul_two_pow_succ heven s.work.fs).trans hprod
      exact ⟨rfl, rfl, { hr.shift hw hfd' hprod' hr.A with },
        fun _ => (phaseOk_f2Loop_cmd rfl rfl).2 ⟨hfd', hop, hprod'⟩⟩
    next => exact microOk_completeOk_factors hr _ hr.fd
  | mr =>
    obtain ⟨hfd, htest, hprod⟩ := (phaseOk_f2Loop_mr hph hret).1 hp
    split
    next heven =>
      have hfd' : s.work.fd / 2 ≠ 0 := by omega
      have hprod' := (half_mul_two_pow_succ heven s.work.fs).trans hprod
      exact ⟨rfl, rfl, { hr.shift hw hfd' hprod' ((Nat.sub_le _ _).trans_lt hr.nn) with },
        fun _ => (phaseOk_f2Loop_mr rfl rfl).2 ⟨hfd', htest, hprod'⟩⟩
    next hodd =>
      have hfactored := And.intro htest (And.intro (Nat.mod_two_ne_zero.1 hodd) hprod)
      cases hmode : f.mode with
      | prob =>
        exact ⟨rfl, rfl, { hr with d := hr.fd, s := hr.fs }, fun _ => (phaseOk_mrSeed rfl).2 ⟨hfactored, hmode⟩⟩
      | det =>
        exact ⟨rfl, rfl, { hr with d := hr.fd, s := hr.fs }, fun _ => (phaseOk_mrdBound rfl).2 ⟨hfactored, hmode⟩⟩

/-! #### Trial division (R162) -/

theorem tdLoop_microOk (hr : Ranges s) (hph : s.phase = .tdLoop) (hp : PhaseOk f s) : MicroOk f s (tdLoop f s) := by
  obtain ⟨hop, hk⟩ := (phaseOk_tdLoop hph).1 hp
  unfold tdLoop
  split
  · split
    · exact microOk_completeOk_verdict hr true
    next hop3 => exact ⟨rfl, rfl, { hr with }, fun _ => (phaseOk_mrStart rfl).2 (.inr (.inr (hop.resolve_left hop3)))⟩
  next hne =>
    split
    · exact microOk_completeOk_verdict hr false
    · have hk' : s.work.k + 1 ≤ f.klim := by omega
      exact ⟨rfl, rfl, { hr with k := hk'.trans (klim_le f) }, fun _ => (phaseOk_tdLoop rfl).2 ⟨hop, hk'⟩⟩

/-! #### The witness loop (R183 to R192) -/

theorem mrStart_microOk (hr : Ranges s) (hph : s.phase = .mrStart) (hp : PhaseOk f s) : MicroOk f s (mrStart f s) := by
  have hop := (phaseOk_mrStart hph).1 hp
  unfold mrStart
  split
  · exact microOk_completeErr hr _
  next hlim =>
    have htest : TestOk f s := ⟨hop, by omega⟩
    have hpos : s.work.nn - 1 ≠ 0 := by have := htest.three_lt; omega
    exact ⟨rfl, rfl, { hr with fd := (Nat.sub_le _ _).trans_lt hr.nn, fs := Nat.two_pow_pos _ },
      fun _ => (phaseOk_f2Loop_mr rfl rfl).2 ⟨hpos, htest, Nat.mul_one _⟩⟩

theorem mrSeed_microOk (hr : Ranges s) (hw : s.WidthOk) (hacc : f.acc < 2 ^ 16) (hph : s.phase = .mrSeed)
    (hp : PhaseOk f s) : MicroOk f s (mrSeed f s) := by
  obtain ⟨hfactored, hmode⟩ := (phaseOk_mrSeed hph).1 hp
  unfold mrSeed
  split
  next => exact ⟨rfl, rfl, hr, fun _ => hp⟩
  next p rest _ =>
    have hrng : Ranges { s with rng := rest } := { hr with }
    split
    · exact { microOk_completeErr hrng _ with }
    split
    · exact ⟨rfl, rfl, { hr with w := hw.word_lt p.word.isLt, i := hacc },
        fun _ => (phaseOk_mrRound rfl).2 ⟨hfactored, fun hdet => by simp [hmode] at hdet⟩⟩
    · exact ⟨rfl, rfl, hrng, fun _ => (phaseOk_mrSeed hph).2 ⟨hfactored, hmode⟩⟩

theorem mrdBound_microOk (hr : Ranges s) (hw : s.WidthOk) (hph : s.phase = .mrdBound) (hp : PhaseOk f s) :
    MicroOk f s (mrdBound s) := by
  obtain ⟨hfactored, -⟩ := (phaseOk_mrdBound hph).1 hp
  have hwb : min (s.work.nn - 1) (Config.lnb s.work.nn) ≤ s.work.nn - 1 := min_le_left _ _
  have hn : 2 ≤ s.work.nn := by have := hfactored.1.three_lt; omega
  exact ⟨rfl, rfl,
    { hr with wb := (hwb.trans (Nat.sub_le _ _)).trans_lt hr.nn, w := hw.word_lt (by decide : (2 : Nat) < 2 ^ 32) },
    fun _ => (phaseOk_mrRound rfl).2 ⟨hfactored, fun _ => ⟨hn, hwb⟩⟩⟩

/-- A witness of the probabilistic test is below its operand (R185). -/
theorem lcg_lt (w : Nat) {n : Nat} (hn : 4 < n) : lcg w n < n := by
  have := Nat.mod_lt (w * Config.witnessMul) (show 0 < n - 4 by omega)
  unfold lcg
  omega

theorem startRound_microOk (hr : Ranges s) (hw : s.WidthOk) (hround : RoundOk f s) :
    MicroOk f s (startRound s.work s) := by
  have hn : s.work.nn ≠ 0 := by have := hround.1.1.three_lt; omega
  exact ⟨rfl, rfl, { hr with r := hw.word_lt (by decide : (1 : Nat) < 2 ^ 32), b := hr.w, e := hr.d, m := hr.nn },
    fun _ => (phaseOk_pmLoop_mr rfl rfl).2 ⟨hn, hround, rfl⟩⟩

theorem mrRound_microOk (hr : Ranges s) (hw : s.WidthOk) (hph : s.phase = .mrRound) (hp : PhaseOk f s) :
    MicroOk f s (mrRound f s) := by
  obtain ⟨hfactored, hdet⟩ := (phaseOk_mrRound hph).1 hp
  unfold mrRound
  cases hmode : f.mode with
  | prob =>
    dsimp only
    split
    · exact microOk_completeOk_verdict hr true
    · have hr' : Ranges { s with work := { s.work with i := s.work.i - 1, w := lcg s.work.w s.work.nn } } :=
        { hr with i := (Nat.sub_le _ _).trans_lt hr.i, w := (lcg_lt _ (hfactored.1.four_lt hmode)).trans hr.nn }
      exact { startRound_microOk (f := f) hr' hw ⟨hfactored, fun h => by simp [hmode] at h⟩ with }
  | det =>
    dsimp only
    split
    · exact microOk_completeOk_verdict hr true
    next hle => exact startRound_microOk hr hw ⟨hfactored, fun h => ⟨Nat.le_of_not_lt hle, (hdet h).2⟩⟩

/-- The next witness of MRD is at most its operand. -/
theorem roundPasses_microOk (hr : Ranges s) (hround : RoundOk f s) : MicroOk f s (roundPasses f s.work s) := by
  obtain ⟨hfactored, hdet⟩ := hround
  unfold roundPasses
  cases hmode : f.mode with
  | prob =>
    exact ⟨rfl, rfl, { hr with }, fun _ => (phaseOk_mrRound rfl).2 ⟨hfactored, fun h => by simp [hmode] at h⟩⟩
  | det =>
    obtain ⟨hwle, hwb⟩ := hdet hmode
    have hnext : s.work.w + 1 ≤ s.work.nn := by have := hfactored.1.three_lt; omega
    exact ⟨rfl, rfl, { hr with w := hnext.trans_lt hr.nn },
      fun _ => (phaseOk_mrRound rfl).2 ⟨hfactored, fun _ => ⟨hnext, hwb⟩⟩⟩

theorem squarings_le (n : Nat) : squarings n ≤ n := by
  unfold squarings
  split <;> omega

theorem mrCheckX_microOk (hr : Ranges s) (hph : s.phase = .mrCheckX) (hp : PhaseOk f s) : MicroOk f s (mrCheckX f s) := by
  have hround := (phaseOk_mrCheckX hph).1 hp
  unfold mrCheckX
  split
  · exact roundPasses_microOk hr hround
  · exact ⟨rfl, rfl, { hr with j := (squarings_le _).trans_lt hr.s },
      fun _ => (phaseOk_mrSq rfl).2 ⟨hround, squarings_le _⟩⟩

theorem mrSq_microOk (hr : Ranges s) (hph : s.phase = .mrSq) (hp : PhaseOk f s) : MicroOk f s (mrSq f s) := by
  obtain ⟨hround, hj⟩ := (phaseOk_mrSq hph).1 hp
  have hn : 0 < s.work.nn := by have := hround.1.1.three_lt; omega
  unfold mrSq
  split
  · exact microOk_completeOk_verdict hr false
  have hr' : Ranges { s with work := { s.work with x := s.work.x * s.work.x % s.work.nn, j := s.work.j - 1 } } :=
    { hr with x := (Nat.mod_lt _ hn).trans hr.nn, j := (Nat.sub_le _ _).trans_lt hr.j }
  dsimp only
  split
  · exact { roundPasses_microOk (f := f) hr' hround with }
  · exact ⟨rfl, rfl, { hr' with }, fun _ => (phaseOk_mrSq rfl).2 ⟨hround, (Nat.sub_le _ _).trans hj⟩⟩

/-! #### START, and every micro-step (R124) -/

theorem startFilter_microOk (hr : Ranges s) (hop : f.op = 0x03 ∨ f.op = 0x06) : MicroOk f s (startFilter s) :=
  ⟨rfl, rfl, { hr with nn := hr.A, k := Nat.zero_le _ }, fun _ => (phaseOk_tdLoop rfl).2 ⟨hop, Nat.zero_le _⟩⟩

theorem startTest_microOk (hr : Ranges s) (hop : f.op = 0x04 ∨ f.op = 0x05 ∨ f.op = 0x06) :
    MicroOk f s (startTest s) :=
  ⟨rfl, rfl, { hr with nn := hr.A }, fun _ => (phaseOk_mrStart rfl).2 hop⟩

theorem startPowmod_microOk (hr : Ranges s) (hw : s.WidthOk) (hop : f.op = 0x01) : MicroOk f s (startPowmod s) := by
  unfold startPowmod
  split
  · exact microOk_completeErr hr _
  next hM =>
    exact ⟨rfl, rfl, { hr with r := hw.word_lt (by decide : (1 : Nat) < 2 ^ 32), b := hr.A, e := hr.E, m := hr.M },
      fun _ => (phaseOk_pmLoop_cmd rfl rfl).2 ⟨hM, hop⟩⟩

theorem startFac2_microOk (hr : Ranges s) (hop : f.op = 0x02) : MicroOk f s (startFac2 s) := by
  unfold startFac2
  split
  · exact microOk_completeErr hr _
  next hA =>
    exact ⟨rfl, rfl, { hr with fd := hr.A, fs := Nat.two_pow_pos _ },
      fun _ => (phaseOk_f2Loop_cmd rfl rfl).2 ⟨hA, hop, Nat.mul_one _⟩⟩

theorem startOf_microOk (i : Instr) (hr : Ranges s) (hw : s.WidthOk) : MicroOk (cmdFields i) s (startOf i s) := by
  cases i with
  | powmod => exact startPowmod_microOk hr hw rfl
  | fac2 => exact startFac2_microOk hr rfl
  | tdiv100 => exact startFilter_microOk hr (.inl rfl)
  | tdiv1000 => exact startFilter_microOk hr (.inl rfl)
  | mr acc => exact startTest_microOk hr (.inl rfl)
  | mrd => exact startTest_microOk hr (.inr (.inl rfl))
  | check100 acc => exact startFilter_microOk hr (.inr rfl)
  | check1000 acc => exact startFilter_microOk hr (.inr rfl)

/-- Every micro-step of the command in `LASTCMD` keeps the ranges and what holds in its phase. -/
theorem microStep_microOk {i : Instr} (hd : decode s.lastcmd = .ok i) (hr : Ranges s) (hw : s.WidthOk)
    (hp : PhaseOk (cmdFields i) s) : MicroOk (cmdFields i) s (microStep (startOf i) (cmdFields i) s) := by
  unfold microStep
  cases hph : s.phase with
  | idle => exact ⟨rfl, rfl, hr, fun _ => hp⟩
  | start => exact startOf_microOk i hr hw
  | pmLoop => exact pmLoop_microOk hr hph hp
  | f2Loop => exact f2Loop_microOk hr hw hph hp
  | tdLoop => exact tdLoop_microOk hr hph hp
  | mrStart => exact mrStart_microOk hr hph hp
  | mrSeed => exact mrSeed_microOk hr hw (acc_lt_of_decode hd) hph hp
  | mrdBound => exact mrdBound_microOk hr hw hph hp
  | mrRound => exact mrRound_microOk hr hw hph hp
  | mrCheckX => exact mrCheckX_microOk hr hph hp
  | mrSq => exact mrSq_microOk hr hph hp

end

/-! ### The invariant of the data, kept by every step -/

/-- The width, the ranges, and the clause of the phase: the part of `Inv` without `STATUS` and `rng_req`. -/
structure DataOk (s : State) : Prop where
  width   : s.WidthOk
  ranges  : Ranges s
  command : CommandOk s

theorem Inv.dataOk {s : State} (h : Inv s) : DataOk s := by
  obtain ⟨hwidth, hrange, -, -, hcommand⟩ := h
  exact ⟨hwidth, rangeOk_iff.1 hrange, hcommand⟩

section
variable {s t : State}

theorem DataOk.withEvents (h : DataOk s) (rest : List Event) : DataOk { s with events := rest } :=
  ⟨h.width, { h.ranges with }, h.command⟩

theorem DataOk.hostRead (h : DataOk s) (idx : PortIdx) : DataOk (hostRead s idx) :=
  ⟨h.width, { h.ranges with }, h.command⟩

theorem DataOk.withIe (h : DataOk s) (ie : Bool) : DataOk { s with ie := ie } :=
  ⟨h.width, { h.ranges with }, h.command⟩

/-- Of `STATUS` only `BUSY` matters. -/
theorem DataOk.withStatus (h : DataOk s) {st : Status} (hb : st.busy = s.status.busy) : DataOk { s with status := st } :=
  ⟨h.width, { h.ranges with }, fun hbusy => h.command (hb.symm.trans hbusy)⟩

theorem DataOk.ofIdle (hw : s.WidthOk) (hr : Ranges s) (hidle : s.status.busy = false) : DataOk s :=
  ⟨hw, hr, fun hbusy => by simp [hidle] at hbusy⟩

theorem DataOk.setA (h : DataOk s) (hidle : s.status.busy = false) {v : Nat} (hv : v < 2 ^ s.W) :
    DataOk { s with A := v } := .ofIdle h.width { h.ranges with A := hv } hidle

theorem DataOk.setE (h : DataOk s) (hidle : s.status.busy = false) {v : Nat} (hv : v < 2 ^ s.W) :
    DataOk { s with E := v } := .ofIdle h.width { h.ranges with E := hv } hidle

theorem DataOk.setM (h : DataOk s) (hidle : s.status.busy = false) {v : Nat} (hv : v < 2 ^ s.W) :
    DataOk { s with M := v } := .ofIdle h.width { h.ranges with M := hv } hidle

theorem DataOk.resetBlock (h : DataOk s) : DataOk (resetBlock s) := by
  have h0 (n : Nat) : 0 < 2 ^ n := Nat.two_pow_pos n
  exact .ofIdle h.width
    ⟨h0 _, h0 _, h0 _, h0 _, h0 _, h0 _, h0 _, h0 _, h0 _, h0 _, h0 _, h0 _, h0 _, h0 _, h0 _, h0 _, h0 _, h0 _,
      Nat.zero_le _⟩ rfl

theorem DataOk.acceptCmd (h : DataOk s) (cw : Word) : DataOk (acceptCmd cw s) := by
  unfold Machine.acceptCmd
  split
  next hlegal =>
    refine ⟨h.width, { h.ranges with }, fun _ => ?_⟩
    unfold legal at hlegal
    split at hlegal
    next i hd => exact ⟨i, hd, (phaseOk_start rfl).2 trivial⟩
    next => cases hlegal
  next => exact .ofIdle h.width { h.ranges with } rfl

theorem DataOk.writeCtrl (h : DataOk s) (v : Word) : DataOk (writeCtrl v s) := by
  unfold Machine.writeCtrl
  split
  · exact h.resetBlock
  · exact h.withIe _

/-- The word of a window is one of the `NW` words of its register (R64). -/
theorem portMap_word_lt {nw t : Nat} {idx : PortIdx} {word : Nat → PortReg}
    (hword : word = .aWord ∨ word = .eWord ∨ word = .mWord) (h : portMap nw idx = word t) : t < nw := by
  unfold portMap window at h
  obtain rfl | rfl | rfl := hword <;> grind (splits := 20)

theorem DataOk.memWrite (h : DataOk s) (idx : PortIdx) (v : Word) : DataOk (memWrite s idx v) := by
  cases hb : s.status.busy with
  | true =>
    obtain he | he | ⟨-, he⟩ | he := memWrite_busy hb idx v <;> rw [he]
    · exact h
    · exact h.withStatus rfl
    · exact h.writeCtrl v
    · exact h.withStatus rfl
  | false =>
    unfold Machine.memWrite
    split
    case h_3 => exact h.writeCtrl v
    case h_4 => exact h.withStatus rfl
    case h_5 => rw [whenIdle_idle hb]; exact h.acceptCmd v
    case h_8 t hm =>
      rw [whenIdle_idle hb]
      exact h.setA hb (setWord_lt v h.ranges.A (portMap_word_lt (.inl rfl) hm))
    case h_9 t hm =>
      rw [whenIdle_idle hb]
      exact h.setE hb (setWord_lt v h.ranges.E (portMap_word_lt (.inr (.inl rfl)) hm))
    case h_10 t hm =>
      rw [whenIdle_idle hb]
      exact h.setM hb (setWord_lt v h.ranges.M (portMap_word_lt (.inr (.inr rfl)) hm))
    all_goals exact h

theorem writeCtrl_nw (v : Word) : (writeCtrl v s).nw = s.nw := by
  unfold writeCtrl
  split <;> rfl

theorem whenIdle_nw {effect : State → State} (h : (effect s).nw = s.nw) : (whenIdle s effect).nw = s.nw := by
  unfold whenIdle
  split
  · rfl
  · exact h

/-- No write changes the width of the block (R45). -/
theorem memWrite_nw (idx : PortIdx) (v : Word) : (memWrite s idx v).nw = s.nw := by
  unfold memWrite
  split
  case h_3 => exact writeCtrl_nw v
  case h_5 => exact whenIdle_nw (acceptCmd_nw v s)
  case h_8 => exact whenIdle_nw rfl
  case h_9 => exact whenIdle_nw rfl
  case h_10 => exact whenIdle_nw rfl
  all_goals rfl

/-- The engine's move is a micro-step of the command in `LASTCMD`, whose clause `CommandOk` gives. -/
theorem DataOk.engineStep (h : DataOk s) (hstep : engineStep s = .next t) : t.nw = s.nw ∧ DataOk t := by
  obtain ⟨-, rfl⟩ | ⟨i, hbusy, hd, rfl⟩ := engineStep_cases hstep
  · exact ⟨rfl, h⟩
  · obtain ⟨j, hd', hp⟩ := h.command hbusy
    obtain rfl : i = j := by rw [hd] at hd'; injection hd'
    have hok := microStep_microOk hd h.ranges h.width hp
    refine ⟨hok.nw, ?_, hok.ranges, fun hb => ⟨i, hok.lastcmd ▸ hd, hok.phase hb⟩⟩
    unfold State.WidthOk
    rw [hok.nw]
    exact h.width

/-- `DataOk` is inductive by itself. -/
theorem DataOk.step (h : DataOk s) (hstep : step s = .next t) : t.nw = s.nw ∧ DataOk t := by
  obtain ⟨-, he⟩ | ⟨rest, -, he⟩ | ⟨idx, rest, -, rfl⟩ | ⟨idx, v, rest, -, rfl⟩ |
    ⟨rest, -, -, rfl⟩ | ⟨rest, -, -, he⟩ | ⟨rest, -, rfl⟩ := step_cases hstep
  · exact h.engineStep he
  · exact (h.withEvents rest).engineStep he
  · exact ⟨rfl, (h.withEvents rest).hostRead idx⟩
  · exact ⟨memWrite_nw idx v, (h.withEvents rest).memWrite idx v⟩
  · exact ⟨rfl, (h.hostRead statusIdx).withEvents rest⟩
  · exact (h.hostRead statusIdx).engineStep he
  · exact ⟨rfl, (h.withEvents rest).resetBlock⟩

/-! ### Runs -/

/-- A run of `n + 1` steps that ends in a next state begins with a step that does. -/
theorem run_succ_next {C : Host.Core} {n : Nat} {s t : C.State} (h : C.run (n + 1) s = .next t) :
    ∃ u, C.step s = .next u ∧ C.run n u = .next t := by
  unfold Host.Core.run at h
  split at h
  next u hu => exact ⟨u, hu, h⟩
  next => cases h
  next => cases h

/-- `DataOk` holds along every run, in which the width of the block stays. -/
theorem DataOk.run (n : Nat) (h : DataOk s) (hrun : core.run n s = .next t) : t.nw = s.nw ∧ DataOk t := by
  induction n generalizing s with
  | zero => cases hrun; exact ⟨rfl, h⟩
  | succ n ih =>
    obtain ⟨u, hstep, hrest⟩ := run_succ_next hrun
    obtain ⟨hnw, hu⟩ := h.step hstep
    obtain ⟨hnw', ht⟩ := ih hu hrest
    exact ⟨hnw'.trans hnw, ht⟩

end

/-- Settles O54, by induction on the number of steps: `DataOk` holds in a state of the invariant and every step keeps it
(R44). -/
theorem registersStayInRange : Obligations.RegistersStayInRange := by
  intro n s t hinv hrun
  obtain ⟨hnw, ht⟩ := hinv.dataOk.run n hrun
  exact ⟨hnw, rangeOk_iff.2 ht.ranges⟩

end Sys2Proof.Machine
end

section
/-! PROOF. What a write at each index of the port does (R63 to R66): the windows of the operands, the three registers with an
effect of their own, and every other index, which ignores it. -/

namespace Sys2Proof.Machine

/-! ### The operand windows in the port map (R64) -/

/-- The port's name for word `t` of an operand register. -/
def BigReg.word : BigReg → Nat → PortReg
  | .a => .aWord
  | .e => .eWord
  | .m => .mWord

/-- `idx` is one of the `NW` words of an operand register. -/
def IsOperandIdx (nw : Nat) (idx : PortIdx) : Prop := ∃ X : BigReg, X.base ≤ idx.toNat ∧ idx.toNat < X.base + nw

theorem isOperandIdx_iff {nw : Nat} {idx : PortIdx} :
    IsOperandIdx nw idx ↔ (0x080 ≤ idx.toNat ∧ idx.toNat < 0x080 + nw) ∨ (0x100 ≤ idx.toNat ∧ idx.toNat < 0x100 + nw) ∨
      (0x180 ≤ idx.toNat ∧ idx.toNat < 0x180 + nw) := by
  constructor
  · rintro ⟨X, h⟩
    cases X with
    | a => exact .inl h
    | e => exact .inr (.inl h)
    | m => exact .inr (.inr h)
  · rintro (h | h | h)
    · exact ⟨.a, h⟩
    · exact ⟨.e, h⟩
    · exact ⟨.m, h⟩

theorem window_of_lt {nw t : Nat} (word : Nat → PortReg) (h : t < nw) : window nw t word = word t := if_pos h

theorem window_of_le {nw t : Nat} (word : Nat → PortReg) (h : nw ≤ t) : window nw t word = .reserved :=
  if_neg (Nat.not_lt.2 h)

/-- The windows are 128 words apart, so that a block of legal width has all `NW` words of each operand (R64). -/
theorem portMap_operand {nw : Nat} (hnw : nw ≤ 128) {idx : PortIdx} (X : BigReg) (h : X.base ≤ idx.toNat)
    (h' : idx.toNat < X.base + nw) : portMap nw idx = X.word (idx.toNat - X.base) := by
  cases X <;> simp only [BigReg.base] at h h' ⊢
  case a => rw [portMap_a nw idx h (by omega), window_of_lt _ (by omega)]; rfl
  case e => rw [portMap_e nw idx h (by omega), window_of_lt _ (by omega)]; rfl
  case m => rw [portMap_m nw idx h (by omega), window_of_lt _ (by omega)]; rfl

/-- Only the indices of a register's window hold its words. -/
theorem portMap_eq_word {nw t : Nat} {idx : PortIdx} (X : BigReg) (h : portMap nw idx = X.word t) :
    X.base ≤ idx.toNat ∧ idx.toNat < X.base + nw := by
  unfold portMap window at h
  cases X <;> simp only [BigReg.word, BigReg.base] at h ⊢ <;> grind (splits := 20)

/-- Only index `0x003` is `STATUS`. -/
theorem portMap_eq_status {nw : Nat} {idx : PortIdx} (h : portMap nw idx = .status) : idx = statusIdx := by
  unfold portMap window at h
  apply BitVec.eq_of_toNat_eq
  show idx.toNat = 3
  grind (splits := 20)

/-- Above the registers `0x000` to `0x006`, what is in no window is reserved (R64, R65). -/
theorem portMap_eq_reserved {nw : Nat} {idx : PortIdx} (h : 0x007 ≤ idx.toNat) (hop : ¬ IsOperandIdx nw idx)
    (hr : ¬ (0x200 ≤ idx.toNat ∧ idx.toNat < 0x200 + nw)) : portMap nw idx = .reserved := by
  rw [isOperandIdx_iff] at hop
  obtain hlow | hlow := Nat.lt_or_ge idx.toNat 0x080
  · exact portMap_reserved nw idx h hlow
  obtain ha | ha := Nat.lt_or_ge idx.toNat 0x100
  · rw [portMap_a nw idx hlow ha, window_of_le _ (by omega)]
  obtain he | he := Nat.lt_or_ge idx.toNat 0x180
  · rw [portMap_e nw idx ha he, window_of_le _ (by omega)]
  obtain hm | hm := Nat.lt_or_ge idx.toNat 0x200
  · rw [portMap_m nw idx he hm, window_of_le _ (by omega)]
  · rw [portMap_r nw idx hm, window_of_le _ (by omega)]

theorem memRead_reserved {s : State} {idx : PortIdx} (h : portMap s.nw idx = .reserved) : memRead s idx = 0 := by
  simp only [memRead, h]

/-! ### What a write does, by its index (R63) -/

/-- A step whose event is a write answers what the write leaves. -/
theorem step_write {s t : State} {idx : PortIdx} {v : Word} {rest : List Event} (h : s.events = .write idx v :: rest)
    (ht : memWrite { s with events := rest } idx v = t) : step s = .next t := by
  unfold step
  rw [h, ← ht]

theorem memWrite_ctrl_reset {s : State} {v : Word} (h : v.getLsbD 1 = true) : memWrite s ctrlIdx v = resetBlock s :=
  if_pos h

theorem memWrite_ctrl_no_reset {s : State} {v : Word} (h : v.getLsbD 1 = false) :
    memWrite s ctrlIdx v = { s with ie := v.getLsbD 0 } := if_neg (ne_true_of_eq_false h)

/-- A write of `STATUS` clears the bits written with a 1 and keeps the others (R224, R225). -/
theorem memWrite_status (s : State) (v : Word) :
    memWrite s statusIdx v =
      { s with
        status := { s.status with
          done := if v.getLsbD 1 then false else s.status.done,
          wign := if v.getLsbD 5 then false else s.status.wign } } := by
  show ({ s with status := s.status.writeOneToClear v } : State) = _
  unfold Status.writeOneToClear
  cases v.getLsbD 1 <;> cases v.getLsbD 5 <;> simp

theorem memWrite_cmd_busy {s : State} {v : Word} (hb : s.status.busy = true) : memWrite s cmdIdx v = ignoreWrite s :=
  whenIdle_busy hb _

/-- While busy a write of an operand word is dropped (R66). -/
theorem memWrite_operand_busy {s : State} {idx : PortIdx} {v : Word} (hw : s.WidthOk) (hb : s.status.busy = true)
    (h : IsOperandIdx s.nw idx) : memWrite s idx v = ignoreWrite s := by
  obtain ⟨X, hlo, hhi⟩ := h
  have hmap := portMap_operand hw.2 X hlo hhi
  cases X <;> simp only [memWrite, hmap, BigReg.word, whenIdle_busy hb]

/-- An index that is not `CTRL`, `STATUS`, `CMD` or a word of an operand is read-only or reserved: it ignores a write (R65). -/
theorem memWrite_ignored {s : State} {idx : PortIdx} {v : Word} (hctrl : idx.toNat ≠ 0x002) (hstatus : idx.toNat ≠ 0x003)
    (hcmd : idx.toNat ≠ 0x004) (hop : ¬ IsOperandIdx s.nw idx) : memWrite s idx v = s := by
  unfold memWrite
  split
  case h_3 hm => exact absurd (congrArg BitVec.toNat (portMap_eq_ctrl hm)) hctrl
  case h_4 hm => exact absurd (congrArg BitVec.toNat (portMap_eq_status hm)) hstatus
  case h_5 hm => exact absurd (congrArg BitVec.toNat (portMap_eq_cmd hm)) hcmd
  case h_8 hm => exact absurd ⟨.a, portMap_eq_word .a hm⟩ hop
  case h_9 hm => exact absurd ⟨.e, portMap_eq_word .e hm⟩ hop
  case h_10 hm => exact absurd ⟨.m, portMap_eq_word .m hm⟩ hop
  all_goals rfl

/-! ### The words of `CTRL` and `STATUS` (R27, R28) -/

theorem toNat_ctrlWord (ie : Bool) : (ctrlWord ie).toNat = ie.toNat := by cases ie <;> rfl

theorem ErrCode.code_le (c : ErrCode) : c.code ≤ 3 := by cases c <;> decide

/-- The low byte of `STATUS`, its six flags (R28). -/
def Status.flagByte (t : Status) : Nat :=
  t.busy.toNat + 2 * t.done.toNat + 4 * t.err.toNat + 8 * t.verdict.toNat + 16 * t.vvalid.toNat + 32 * t.wign.toNat

theorem Status.flagByte_lt (t : Status) : t.flagByte < 64 := by
  have hbusy := t.busy.toNat_le
  have hdone := t.done.toNat_le
  have herr := t.err.toNat_le
  have hverdict := t.verdict.toNat_le
  have hvvalid := t.vvalid.toNat_le
  have hwign := t.wign.toNat_le
  unfold flagByte
  omega

/-- The fields of `STATUS` fit the 32-bit word, so none of it is lost. -/
theorem Status.toNat_word (t : Status) : t.word.toNat = t.flagByte + 256 * t.errcode.code := by
  have hflags := t.flagByte_lt
  have hcode := t.errcode.code_le
  exact (BitVec.toNat_ofNat _ _).trans (Nat.mod_eq_of_lt (show t.flagByte + 256 * t.errcode.code < 2 ^ 32 by omega))

/-- Bits 7:6 and 31:12 of `STATUS` read 0. -/
theorem Status.word_reserved (t : Status) : t.word.toNat / 64 % 4 = 0 ∧ t.word.toNat / 4096 = 0 := by
  have hflags := t.flagByte_lt
  have hcode := t.errcode.code_le
  rw [t.toNat_word]
  omega

/-- Bits 31:1 of `CTRL` read 0. -/
theorem ctrlWord_reserved (ie : Bool) : (ctrlWord ie).toNat / 2 = 0 := by
  rw [toNat_ctrlWord]
  exact Nat.div_eq_of_lt ie.toNat_lt

/-- Only bits 0 and 1 of a write of `CTRL` matter. -/
theorem memWrite_ctrl_congr (s : State) {v v' : Word} (h0 : v.getLsbD 0 = v'.getLsbD 0) (h1 : v.getLsbD 1 = v'.getLsbD 1) :
    memWrite s ctrlIdx v = memWrite s ctrlIdx v' := by
  show writeCtrl v s = writeCtrl v' s
  rw [writeCtrl, writeCtrl, h0, h1]

/-- Only bits 1 and 5 of a write of `STATUS` matter. -/
theorem memWrite_status_congr (s : State) {v v' : Word} (h1 : v.getLsbD 1 = v'.getLsbD 1)
    (h5 : v.getLsbD 5 = v'.getLsbD 5) : memWrite s statusIdx v = memWrite s statusIdx v' := by
  rw [memWrite_status, memWrite_status, h1, h5]

/-! ### The statements -/

/-- Settles O11: no index but `CTRL`, `STATUS`, `CMD` and the operand words has an effect, an index in no window is reserved,
and the fields of the two status words leave their reserved bits 0 (R65). -/
theorem readOnlyAndReservedWrite : Obligations.ReadOnlyAndReservedWrite := by
  refine ⟨?_, fun s v v' => ?_⟩
  · intro s idx v rest _ hev hctrl hstatus hcmd ha he hm
    have hop : ¬ IsOperandIdx s.nw idx := by rw [isOperandIdx_iff]; tauto
    exact ⟨step_write hev (memWrite_ignored hctrl hstatus hcmd hop),
      fun hlow hr => memRead_reserved (portMap_eq_reserved hlow hop hr)⟩
  · obtain ⟨hbits76, hbits12⟩ := s.status.word_reserved
    exact ⟨ctrlWord_reserved s.ie, hbits76, hbits12, memWrite_ctrl_congr s, memWrite_status_congr s⟩

/-- Settles O12, by the index written: `CMD` and the operand words act only while idle, `CTRL` and `STATUS` do not look at
`BUSY`, and a reset leaves nothing of the running command (R66). -/
theorem writesWhileBusy : Obligations.WritesWhileBusy := by
  intro s idx v rest hw hb hev
  have hidx {i : PortIdx} (h : idx.toNat = i.toNat) : s.events = .write i v :: rest := by
    rw [← BitVec.eq_of_toNat_eq h, hev]
  refine ⟨?_, fun h hv => ?_, fun h hv => ?_, fun h => ?_, fun h => ?_⟩
  · rintro (hcmd | hop)
    · exact step_write (hidx (i := cmdIdx) hcmd) (memWrite_cmd_busy hb)
    · exact step_write hev (memWrite_operand_busy hw hb (isOperandIdx_iff.2 hop))
  · exact step_write (hidx (i := ctrlIdx) h) (memWrite_ctrl_no_reset hv)
  · have hev' := hidx (i := ctrlIdx) h
    rw [step_write hev' (memWrite_ctrl_reset hv)]
    exact Eq.symm (step_write hev' (memWrite_ctrl_reset hv))
  · exact step_write (hidx (i := statusIdx) h) (memWrite_status _ v)
  · simp only [List.mem_cons, List.not_mem_nil, or_false] at h
    have hnw := hw.2
    have hop : ¬ IsOperandIdx s.nw idx := by rw [isOperandIdx_iff]; omega
    exact step_write hev (memWrite_ignored (by omega) (by omega) (by omega) hop)

end Sys2Proof.Machine
end

section
/-! PROOF. Which command words are legal (spec/30_encoding.md R91 to R97): by field, by the table of R96, by the two halves of
the word, how many there are, and what writing any other word does. -/

namespace Sys2Proof

/-! ### The fields of a word as arithmetic (R91) -/

theorem opcodeField_eq (cw : Word) : opcodeField cw = cw.toNat % 256 := by
  rw [opcodeField, BitVec.extractLsb'_toNat, Nat.shiftRight_zero]

theorem reservedField_eq (cw : Word) : reservedField cw = cw.toNat / 512 % 128 := by
  rw [reservedField, BitVec.extractLsb'_toNat, Nat.shiftRight_eq_div_pow]

theorem accField_eq (cw : Word) : accField cw = cw.toNat / 65536 := by
  have hlt := cw.isLt
  rw [accField, BitVec.extractLsb'_toNat, Nat.shiftRight_eq_div_pow]
  omega

theorem tableField_eq_false_iff (cw : Word) : tableField cw = false ↔ cw.toNat / 256 % 2 = 0 := by
  rw [tableField, BitVec.getLsbD, Nat.testBit_eq_decide_div_mod_eq]
  simp

/-! ### Legality by field (R95) -/

theorem legal_eq_isOk (cw : Word) : legal cw = (decode cw).isOk := by
  unfold legal
  cases decode cw <;> rfl

theorem formatN_isOk_iff {t : Bool} {acc : Nat} {i : Instr} :
    (formatN t acc i).isOk = true ↔ t = false ∧ acc = 0 := by
  unfold formatN
  cases t <;> by_cases h : acc = 0 <;> simp [h, Except.isOk, Except.toBool]

theorem formatT_isOk_iff {t : Bool} {acc : Nat} {short long : Instr} :
    (formatT t acc short long).isOk = true ↔ acc = 0 := by
  unfold formatT
  by_cases h : acc = 0 <;> simp [h, Except.isOk, Except.toBool]

theorem formatA_isOk_iff {t : Bool} {i : Instr} : (formatA t i).isOk = true ↔ t = false := by
  cases t <;> simp [formatA, Except.isOk, Except.toBool]

/-- The fields of a legal word, format by format. -/
theorem legal_iff_fields (cw : Word) : legal cw = true ↔
    reservedField cw = 0 ∧
      ((opcodeField cw ∈ [0x01, 0x02, 0x05] ∧ tableField cw = false ∧ accField cw = 0) ∨
       (opcodeField cw = 0x03 ∧ accField cw = 0) ∨
       (opcodeField cw = 0x04 ∧ tableField cw = false) ∨
       opcodeField cw = 0x06) := by
  rw [legal_eq_isOk]
  unfold decode
  split
  case isFalse hrsv => exact ⟨nofun, fun h => absurd h.1 hrsv⟩
  case isTrue hrsv =>
    split
    case h_1 hop => simp [formatN_isOk_iff, hop, hrsv]
    case h_2 hop => simp [formatN_isOk_iff, hop, hrsv]
    case h_3 hop => simp [formatT_isOk_iff, hop, hrsv]
    case h_4 hop => simp [formatA_isOk_iff, hop, hrsv]
    case h_5 hop => simp [formatN_isOk_iff, hop, hrsv]
    case h_6 hop => simp [formatTA, Except.isOk, Except.toBool, hop, hrsv]
    case h_7 =>
      simp only [List.mem_cons, List.not_mem_nil, or_false]
      exact ⟨nofun, by tauto⟩

/-- R95 spelled out on the number of the word. -/
theorem legal_iff_bits (cw : Word) : legal cw = true ↔
    cw.toNat / 512 % 128 = 0 ∧
      ((cw.toNat % 256 ∈ [0x01, 0x02, 0x05] ∧ cw.toNat / 256 % 2 = 0 ∧ cw.toNat / 65536 = 0) ∨
       (cw.toNat % 256 = 0x03 ∧ cw.toNat / 65536 = 0) ∨
       (cw.toNat % 256 = 0x04 ∧ cw.toNat / 256 % 2 = 0) ∨
       cw.toNat % 256 = 0x06) := by
  rw [legal_iff_fields, opcodeField_eq, reservedField_eq, accField_eq, tableField_eq_false_iff]

/-! ### Legality by the two halves of the word, and by the table (R96) -/

/-- The low halves of the commands without an accuracy: those of POWMOD, FAC2, TDIV100, TDIV1000 and MRD. -/
def fixedLowHalves : Finset Nat := {0x0001, 0x0002, 0x0003, 0x0103, 0x0005}

/-- The low halves of the commands with an accuracy: those of MR, CHECK100 and CHECK1000. -/
def freeLowHalves : Finset Nat := {0x0004, 0x0006, 0x0106}

/-- The halves `(cw[31:16], cw[15:0])` of the legal words whose accuracy is below `n`. -/
def legalHalves (n : Nat) : Set (Nat × Nat) :=
  {p | (p.1 = 0 ∧ p.2 ∈ fixedLowHalves) ∨ (p.1 < n ∧ p.2 ∈ freeLowHalves)}

/-- The halves of a word, high half first. -/
def halves (cw : Word) : Nat × Nat := (cw.toNat / 65536, cw.toNat % 65536)

theorem mem_legalHalves_iff {n a l : Nat} : (a, l) ∈ legalHalves n ↔
    (a = 0 ∧ (l = 0x0001 ∨ l = 0x0002 ∨ l = 0x0003 ∨ l = 0x0103 ∨ l = 0x0005)) ∨
    (a < n ∧ (l = 0x0004 ∨ l = 0x0006 ∨ l = 0x0106)) := by
  simp only [legalHalves, Set.mem_ofPred_eq, fixedLowHalves, freeLowHalves, Finset.mem_insert, Finset.mem_singleton]

theorem legal_iff_halves (cw : Word) : legal cw = true ↔ halves cw ∈ legalHalves 65536 := by
  have hlt := cw.isLt
  rw [legal_iff_bits, halves, mem_legalHalves_iff]
  simp only [List.mem_cons, List.not_mem_nil, or_false]
  omega

/-- A row with the full mask is one word. -/
theorem rowMatches_full_iff (cw m : Word) : rowMatches cw (m, 0xFFFFFFFF) = true ↔ cw.toNat = m.toNat := by
  rw [rowMatches, beq_iff_eq, show (0xFFFFFFFF : Word) = BitVec.allOnes 32 from rfl, BitVec.and_allOnes, BitVec.toNat_inj]

/-- A row with the half mask fixes the low half and leaves the accuracy free. -/
theorem rowMatches_low_iff (cw m : Word) : rowMatches cw (m, 0x0000FFFF) = true ↔ cw.toNat % 65536 = m.toNat := by
  rw [rowMatches, beq_iff_eq, ← BitVec.toNat_inj, BitVec.toNat_and, ← Nat.and_two_pow_sub_one_eq_mod cw.toNat 16]
  rfl

theorem legal_iff_row (cw : Word) : legal cw = true ↔ ∃ row ∈ opcodeTable, rowMatches cw row = true := by
  have hlt := cw.isLt
  rw [legal_iff_halves, halves, mem_legalHalves_iff]
  simp only [opcodeTable, List.exists_mem_cons_iff, List.not_mem_nil, false_and, exists_false, or_false,
    rowMatches_full_iff, rowMatches_low_iff, Word, BitVec.reduceToNat]
  omega

/-! ### The number of legal words (R95) -/

theorem halves_injective : Function.Injective halves := by
  intro v w h
  obtain ⟨hhigh, hlow⟩ := Prod.mk.inj h
  apply BitVec.eq_of_toNat_eq
  omega

/-- Every pair of 16-bit numbers is the halves of a word. -/
theorem halves_ofNat {a l : Nat} (ha : a < 65536) (hl : l < 65536) : halves (BitVec.ofNat 32 (65536 * a + l)) = (a, l) := by
  have hlt : 65536 * a + l < 2 ^ 32 := by omega
  rw [halves, BitVec.toNat_ofNat, Nat.mod_eq_of_lt hlt]
  exact Prod.ext (by omega) (by omega)

theorem halves_image_legal : halves '' {cw | legal cw = true} = legalHalves 65536 := by
  ext ⟨a, l⟩
  constructor
  · rintro ⟨cw, hlegal, hcw⟩
    rw [← hcw]
    exact (legal_iff_halves cw).1 hlegal
  · intro h
    have hmem := mem_legalHalves_iff.1 h
    have hcw : halves (BitVec.ofNat 32 (65536 * a + l)) = (a, l) := halves_ofNat (by omega) (by omega)
    rw [← hcw] at h
    exact ⟨_, (legal_iff_halves _).2 h, hcw⟩

/-- No low half is of both kinds, so the two parts are counted apart. -/
theorem ncard_legalHalves (n : Nat) : (legalHalves n).ncard = 5 + n * 3 := by
  have hparts : legalHalves n = ({0} ×ˢ fixedLowHalves ∪ Finset.range n ×ˢ freeLowHalves : Finset (Nat × Nat)) := by
    ext p
    simp only [legalHalves, Set.mem_ofPred_eq, Finset.mem_coe, Finset.mem_union, Finset.mem_product,
      Finset.mem_singleton, Finset.mem_range]
  have hdisj : Disjoint fixedLowHalves freeLowHalves := by decide
  rw [hparts, Set.ncard_coe_finset, Finset.card_union_of_disjoint (Finset.disjoint_product.2 (.inr hdisj)),
    Finset.card_product, Finset.card_product, Finset.card_range]
  rfl

theorem ncard_legal : Set.ncard {cw : Word | legal cw = true} = 196613 := by
  rw [← Set.ncard_image_of_injective _ halves_injective, halves_image_legal, ncard_legalHalves]

/-- Settles O3: the fields of a legal word give its halves, the halves are the rows of the table, and counting them counts the
words (R95). -/
theorem legalWords : Obligations.LegalWords := ⟨legal_iff_row, legal_iff_bits, ncard_legal⟩

/-! ### Illegal words (R97) -/

/-- R97 is the complement of R95: the four ways a field makes a word illegal. -/
theorem legal_eq_false_iff_bits (cw : Word) : legal cw = false ↔
    cw.toNat % 256 = 0 ∨ 7 ≤ cw.toNat % 256 ∨ cw.toNat / 512 % 128 ≠ 0 ∨
      (cw.toNat / 256 % 2 = 1 ∧ cw.toNat % 256 ∈ [0x01, 0x02, 0x04, 0x05]) ∨
      (cw.toNat / 65536 ≠ 0 ∧ cw.toNat % 256 ∈ [0x01, 0x02, 0x03, 0x05]) := by
  rw [← Bool.not_eq_true, legal_iff_bits]
  simp only [List.mem_cons, List.not_mem_nil, or_false]
  omega

end Sys2Proof

namespace Sys2Proof.Machine

/-- A word written to `CMD` while idle is accepted or rejected at once (R123). -/
theorem memWrite_cmd_idle {s : State} {cw : Word} (hidle : s.status.busy = false) :
    memWrite s cmdIdx cw = acceptCmd cw s := whenIdle_idle hidle _

/-- An illegal word is kept in `LASTCMD` and answered by an error, the old status cleared (R123, R243). -/
theorem acceptCmd_illegal {cw : Word} (s : State) (h : legal cw = false) :
    acceptCmd cw s = completeErr .illegalCommand { s with lastcmd := cw, status := s.status.cleared } :=
  if_neg (ne_true_of_eq_false h)

/-- Settles O16: the illegal words are the complement of R95's, and an idle block answers one with the shared error operation,
which touches neither operands nor results (R97). -/
theorem illegalWords : Obligations.IllegalWords := by
  intro cw
  refine ⟨legal_eq_false_iff_bits cw, fun s rest hlegal hidle hev => ?_⟩
  have hstep := step_write hev (memWrite_cmd_idle hidle)
  rw [acceptCmd_illegal _ hlegal] at hstep
  exact ⟨_, hstep, by simp⟩

end Sys2Proof.Machine
end

section
/-! PROOF. The acceptance of a `CMD` write (spec/40_command_lifecycle.md R123): what `STATUS` holds after a legal and after an
illegal word, and the three cases of the write. -/

namespace Sys2Proof.Machine

/-! ### `STATUS` after acceptance (R123) -/

theorem Status.running_eq (t : Status) : Status.running t.wign = { t.cleared with busy := true } := rfl

/-- An error taken on a cleared `STATUS` shows nothing of an earlier verdict (R123, R128). -/
theorem Status.ofError_eq (t : Status) (c : ErrCode) : Status.ofError t.wign c = t.cleared.failed c := rfl

/-! ### The three cases of a `CMD` write (R66, R123) -/

/-- A legal word is kept in `LASTCMD` and starts the engine; only `WIGN` is left of the old status (R123). -/
theorem acceptCmd_legal {cw : Word} (s : State) (h : legal cw = true) :
    acceptCmd cw s = { s with lastcmd := cw, status := Status.running s.status.wign, phase := .start } := by
  rw [Status.running_eq]
  exact if_pos h

/-- Settles O15, by its three cases: the write is dropped while busy, and while idle `acceptCmd` starts the engine at a legal
word and takes the shared error operation at an illegal one. -/
theorem acceptanceOfCommand : Obligations.AcceptanceOfCommand := by
  intro s cw rest hev
  refine ⟨fun hbusy => ?busy, fun hidle hlegal => ?legal, fun hidle hillegal => ?illegal⟩
  case busy => exact step_write hev (memWrite_cmd_busy hbusy)
  case legal =>
    have hstep := step_write hev (memWrite_cmd_idle hidle)
    rwa [acceptCmd_legal _ hlegal] at hstep
  case illegal =>
    have hstep := step_write hev (memWrite_cmd_idle hidle)
    rw [acceptCmd_illegal _ hillegal] at hstep
    rwa [Status.ofError_eq]

end Sys2Proof.Machine
end

section
/-! PROOF. The micro-steps of modular arithmetic (spec/41_modular_arithmetic.md R141 to R143, R146 to R148): what `exec` runs in
the phases `START`, `PM_LOOP` and `F2_LOOP`, one equation per case of the rules, and what the invariant says in a busy phase. -/

namespace Sys2Proof.Machine

section
variable {s : State}

/-! ### The rule `exec` runs in a phase (R121) -/

theorem exec_start (i : Instr) (hph : s.phase = .start) : exec i s = .next (startOf i s) := by
  rw [exec_eq_microStep, microStep, hph]

theorem exec_pmLoop (i : Instr) (hph : s.phase = .pmLoop) : exec i s = .next (pmLoop s) := by
  rw [exec_eq_microStep, microStep, hph]

theorem exec_f2Loop (i : Instr) (hph : s.phase = .f2Loop) : exec i s = .next (f2Loop (cmdFields i) s) := by
  rw [exec_eq_microStep, microStep, hph]

/-! ### The clause of the running phase -/

/-- Outside `IDLE` the engine is busy (R36), so the invariant has the phase's clause for the command in `LASTCMD`. -/
theorem Inv.phaseOk (h : Inv s) (hph : s.phase ≠ .idle) :
    ∃ i, decode s.lastcmd = .ok i ∧ PhaseOk (cmdFields i) s := by
  obtain ⟨-, -, -, ⟨hidle, -⟩, hcommand⟩ := h
  exact hcommand (eq_true_of_ne_false (mt hidle.2 hph))

/-- The modulus is not 0 while an exponentiation runs. -/
theorem PhaseOk.modulus_ne_zero {f : CmdFields} (h : PhaseOk f s) (hph : s.phase = .pmLoop) : s.work.m ≠ 0 := by
  cases hret : s.ret with
  | cmd => exact ((phaseOk_pmLoop_cmd hph hret).1 h).1
  | mr => exact ((phaseOk_pmLoop_mr hph hret).1 h).1

/-- The number factored is not 0 while a factorisation runs. -/
theorem PhaseOk.fd_ne_zero {f : CmdFields} (h : PhaseOk f s) (hph : s.phase = .f2Loop) : s.work.fd ≠ 0 := by
  cases hret : s.ret with
  | cmd => exact ((phaseOk_f2Loop_cmd hph hret).1 h).1
  | mr => exact ((phaseOk_f2Loop_mr hph hret).1 h).1

/-! ### START of POWMOD and FAC2 (R141, R146) -/

theorem startPowmod_zero (hM : s.M = 0) : startPowmod s = completeErr .invalidInput s := if_pos hM

theorem startPowmod_ne_zero (hM : s.M ≠ 0) : startPowmod s =
    { s with work := { s.work with r := 1, b := s.A, e := s.E, m := s.M }, ret := .cmd, phase := .pmLoop } := if_neg hM

theorem startFac2_zero (hA : s.A = 0) : startFac2 s = completeErr .invalidInput s := if_pos hA

theorem startFac2_ne_zero (hA : s.A ≠ 0) : startFac2 s =
    { s with work := { s.work with fd := s.A, fs := 0 }, ret := .cmd, phase := .f2Loop } := if_neg hA

/-! ### `PM_LOOP` (R142, R143) -/

theorem pmPass_odd {w : Work} (hodd : w.e % 2 = 1) :
    pmPass w = { w with r := w.r * w.b % w.m, b := w.b * w.b % w.m, e := w.e / 2 } := by rw [pmPass, if_pos hodd]

theorem pmPass_even {w : Work} (heven : w.e % 2 = 0) : pmPass w = { w with b := w.b * w.b % w.m, e := w.e / 2 } := by
  rw [pmPass, if_neg (by omega)]

/-- A pass stays in the phase, so only the working registers change. -/
theorem pmLoop_pass (hph : s.phase = .pmLoop) (he : s.work.e ≠ 0) : pmLoop s = { s with work := pmPass s.work } := by
  rw [pmLoop, if_neg he, ← hph]

theorem pmLoop_exit_cmd (he : s.work.e = 0) (hret : s.ret = .cmd) : pmLoop s = completeOk (.big s.work.r) s := by
  rw [pmLoop, if_pos he, hret]

theorem pmLoop_exit_mr (he : s.work.e = 0) (hret : s.ret = .mr) :
    pmLoop s = { s with work := { s.work with x := s.work.r }, phase := .mrCheckX } := by
  rw [pmLoop, if_pos he, hret]

/-! ### `F2_LOOP` (R147, R148) -/

section
variable {f : CmdFields}

/-- A shift stays in the phase, so only the working registers change. -/
theorem f2Loop_shift (hph : s.phase = .f2Loop) (heven : s.work.fd % 2 = 0) :
    f2Loop f s = { s with work := { s.work with fd := s.work.fd / 2, fs := s.work.fs + 1 } } := by
  rw [f2Loop, if_pos heven, ← hph]

theorem f2Loop_exit_cmd (hodd : s.work.fd % 2 = 1) (hret : s.ret = .cmd) :
    f2Loop f s = completeOk (.factors s.work.fs s.work.fd) s := by
  rw [f2Loop, if_neg (by omega), hret]

theorem f2Loop_exit_prob (hodd : s.work.fd % 2 = 1) (hret : s.ret = .mr) (hmode : f.mode = .prob) :
    f2Loop f s = { s with work := { s.work with d := s.work.fd, s := s.work.fs }, phase := .mrSeed, rngReq := true } := by
  rw [f2Loop, if_neg (by omega), hret]
  simp only [hmode]

theorem f2Loop_exit_det (hodd : s.work.fd % 2 = 1) (hret : s.ret = .mr) (hmode : f.mode = .det) :
    f2Loop f s = { s with work := { s.work with d := s.work.fd, s := s.work.fs }, phase := .mrdBound } := by
  rw [f2Loop, if_neg (by omega), hret]
  simp only [hmode]

end

/-- MRD alone is deterministic (R38). -/
theorem cmdFields_mode_of_ne_mrd {i : Instr} (h : i ≠ .mrd) : (cmdFields i).mode = .prob := by
  cases i with
  | mrd => exact absurd rfl h
  | _ => rfl

/-- A number other than 0 below `2 ^ W` is `2 ^ n` times an odd one with `n ≤ W - 1` (R147). -/
theorem exists_shifts_odd {v W : Nat} (hv : v ≠ 0) (hlt : v < 2 ^ W) : ∃ n ≤ W - 1, v / 2 ^ n % 2 = 1 := by
  obtain ⟨n, d, hodd, rfl⟩ := Nat.exists_eq_two_pow_mul_odd hv
  have hn : n < W := shifts_lt_width hodd.pos.ne' (mul_comm d _) hlt
  refine ⟨n, Nat.le_pred_of_lt hn, ?_⟩
  rw [Nat.mul_div_cancel_left _ (Nat.two_pow_pos n)]
  exact Nat.odd_iff.1 hodd

end

/-! ### The statements -/

/-- Settles O25, by the two cases of R141; the error is the shared operation of R128. -/
theorem powmodStart : Obligations.PowmodStart := by
  intro s hph
  rw [exec_start _ hph]
  exact ⟨fun hM => congrArg _ (startPowmod_zero hM), fun hM => congrArg _ (startPowmod_ne_zero hM)⟩

/-- Settles O26, by the two cases of R146; the error is the shared operation of R128. -/
theorem factorisationStart : Obligations.FactorisationStart := by
  intro s hph
  rw [exec_start _ hph]
  exact ⟨fun hA => congrArg _ (startFac2_zero hA), fun hA => congrArg _ (startFac2_ne_zero hA)⟩

/-- Settles O28: every command runs the same `pmLoop` in the phase, by its four cases; the modulus is a clause of the phase. -/
theorem exponentiationMicroStep : Obligations.ExponentiationMicroStep := by
  intro s acc hph
  refine ⟨fun hinv => ?modulus, fun i _ => ?step⟩
  case modulus =>
    obtain ⟨i, -, hp⟩ := hinv.phaseOk (by simp [hph])
    exact hp.modulus_ne_zero hph
  case step =>
    rw [exec_pmLoop i hph]
    refine ⟨fun he hodd => ?odd, fun he heven => ?even, fun he hret => ?commit, fun he hret => ?check⟩
    case odd => rw [pmLoop_pass hph he, pmPass_odd hodd]
    case even => rw [pmLoop_pass hph he, pmPass_even heven]
    case commit => exact congrArg _ (pmLoop_exit_cmd he hret)
    case check => rw [pmLoop_exit_mr he hret]

/-- Settles O29: the commands differ in `f2Loop` by the mode alone, which only the exit to the witness loop reads; `fd` is not 0
by the clause of the phase, and its range bounds the shifts. -/
theorem factorisationMicroStep : Obligations.FactorisationMicroStep := by
  intro s acc hph
  refine ⟨fun hinv => ?bound, fun i _ => ⟨fun heven => ?shift, fun hodd hret => ?commit⟩,
    fun hodd hret i hi => ?seed, fun hodd hret => ?det⟩
  case bound =>
    obtain ⟨i, -, hp⟩ := hinv.phaseOk (by simp [hph])
    have hfd := hp.fd_ne_zero hph
    exact ⟨hfd, exists_shifts_odd hfd hinv.dataOk.ranges.fd⟩
  case shift => rw [exec_f2Loop i hph, f2Loop_shift hph heven]
  case commit =>
    rw [exec_f2Loop i hph]
    exact congrArg _ (f2Loop_exit_cmd hodd hret)
  case seed =>
    have hne : i ≠ .mrd := by rintro rfl; simp at hi
    rw [exec_f2Loop i hph, f2Loop_exit_prob hodd hret (cmdFields_mode_of_ne_mrd hne)]
  case det => rw [exec_f2Loop _ hph, f2Loop_exit_det hodd hret rfl]

end Sys2Proof.Machine
end

section
/-! PROOF. The prime ROM (spec/42_trial_division.md R160). The primes in a range, in increasing order, are the values of
`Nat.nth Nat.Prime`, so the entries are the right ones when the ROM lists the primes below 7920. That is evaluated once:
`7920 < 89 ^ 2`, so from 89 on a number below 7920 is prime exactly when it has no factor in common with `88!`. -/

namespace Sys2Proof.Machine

/-- What satisfies `p` below `n`, in increasing order, is the first values of `Nat.nth p`. -/
theorem filter_range_eq_map_nth (p : Nat → Prop) [DecidablePred p] (n : Nat) :
    (List.range n).filter (p ·) = (List.range (n.count p)).map (Nat.nth p) := by
  induction n with
  | zero => simp
  | succ n ih =>
    rw [List.range_succ, List.filter_append, ih, Nat.count_succ]
    by_cases h : p n
    · simp [h, List.range_succ, Nat.nth_count h]
    · simp [h]

/-- A composite number below `(m + 1) ^ 2` has a factor up to `m`. -/
theorem prime_iff_coprime_factorial {m n : Nat} (hlt : m < n) (hsq : n < (m + 1) ^ 2) :
    n.Prime ↔ n.Coprime m.factorial := by
  refine ⟨fun h => h.coprime_factorial_of_lt hlt, fun h => ?_⟩
  have hone : n ≠ 1 := by rintro rfl; simp_all
  have hfac : m + 1 ≤ n.minFac := (Nat.coprime_factorial_iff hone).1 h
  by_contra hn
  exact absurd (hsq.trans_le (Nat.pow_le_pow_left hfac 2)) (Nat.minFac_sq_le_self (by omega) hn).not_gt

/-! ### The table evaluated -/

theorem map_prime_range : (List.range 1000).map prime = primeRows.flatten := by decide +kernel

theorem filter_prime_range_89 : (List.range 89).filter (Nat.Prime ·) = primeRows.flatten.take 23 := by decide +kernel

theorem filter_coprime_factorial_range' :
    (List.range' 89 7831).filter (Nat.Coprime · (Nat.factorial 88)) = primeRows.flatten.drop 23 := by decide +kernel

/-- The ROM lists the primes below 7920. -/
theorem filter_prime_range_7920 : (List.range 7920).filter (Nat.Prime ·) = primeRows.flatten := by
  have hrange : List.range 7920 = List.range 89 ++ List.range' 89 7831 := by
    rw [List.range_eq_range', List.range_eq_range', List.range'_append_1]
  have hcoprime : ∀ n ∈ List.range' 89 7831, decide n.Prime = decide (n.Coprime (Nat.factorial 88)) := by
    intro n hn
    obtain ⟨hlo, hhi⟩ := List.mem_range'_1.1 hn
    exact decide_eq_decide.2 (prime_iff_coprime_factorial (by omega) (by omega))
  rw [hrange, List.filter_append, filter_prime_range_89, List.filter_congr hcoprime, filter_coprime_factorial_range',
    List.take_append_drop]

/-! ### The entries -/

theorem prime_eq_nth {k : Nat} (hk : k < 1000) : prime k = Nat.nth Nat.Prime k := by
  have htable : (List.range 1000).map prime = (List.range (Nat.count Nat.Prime 7920)).map (Nat.nth Nat.Prime) := by
    rw [map_prime_range, ← filter_prime_range_7920, filter_range_eq_map_nth]
  have hcount : 1000 = Nat.count Nat.Prime 7920 := by simpa using congrArg List.length htable
  rw [← hcount] at htable
  exact List.map_inj_left.1 htable k (List.mem_range.2 hk)

/-- Settles O47: the entries by the list of the primes below 7920, the two last entries and the two sums by evaluation. -/
theorem primeTable : Obligations.PrimeTable :=
  ⟨fun _ hk => prime_eq_nth hk, by decide, by decide, by decide, by decide +kernel⟩

end Sys2Proof.Machine
end

section
/-! PROOF. The micro-steps of the filter (spec/42_trial_division.md R161, R162) and the START action of the witness loop
(spec/43_miller_rabin.md R182): one equation per case of `TD_LOOP`, and what the testing commands share. -/

namespace Sys2Proof.Machine

/-! ### What the commands that test and those that filter share (R94, R124) -/

section
variable {acc : Nat}

theorem startOf_filter {i : Instr} (hi : i ∈ [Instr.tdiv100, .tdiv1000, .check100 acc, .check1000 acc]) :
    startOf i = startFilter := by
  fin_cases hi <;> rfl

theorem startOf_test {i : Instr} (hi : i ∈ [Instr.mr acc, .mrd]) : startOf i = startTest := by
  fin_cases hi <;> rfl

theorem klim_filter {p : Instr × Nat}
    (hp : p ∈ [(Instr.tdiv100, 100), (.tdiv1000, 1000), (.check100 acc, 100), (.check1000 acc, 1000)]) :
    (cmdFields p.1).klim = p.2 := by
  fin_cases hp <;> rfl

end

/-! ### `TD_LOOP` (R162) -/

section
variable {s : State}

theorem exec_tdLoop (i : Instr) (hph : s.phase = .tdLoop) : exec i s = .next (tdLoop (cmdFields i) s) := by
  rw [exec_eq_microStep, microStep, hph]

theorem rejects_iff {p n : Nat} : rejects p n = true ↔ n % p = 0 ∧ n ≠ p := by simp [rejects]

variable {f : CmdFields}

theorem tdLoop_end_tdiv (hk : s.work.k = f.klim) (hop : f.op = 0x03) : tdLoop f s = completeOk (.verdict true) s := by
  rw [tdLoop, if_pos hk, if_pos hop]

theorem tdLoop_end_check (hk : s.work.k = f.klim) (hop : f.op ≠ 0x03) : tdLoop f s = { s with phase := .mrStart } := by
  rw [tdLoop, if_pos hk, if_neg hop]

theorem tdLoop_reject (hk : s.work.k ≠ f.klim) (hrej : s.work.nn % prime s.work.k = 0 ∧ s.work.nn ≠ prime s.work.k) :
    tdLoop f s = completeOk (.verdict false) s := by
  rw [tdLoop, if_neg hk, if_pos (rejects_iff.2 hrej)]

/-- An entry that passes stays in the phase, so only `k` changes. -/
theorem tdLoop_advance (hph : s.phase = .tdLoop) (hk : s.work.k ≠ f.klim)
    (hpass : ¬ (s.work.nn % prime s.work.k = 0 ∧ s.work.nn ≠ prime s.work.k)) :
    tdLoop f s = { s with work := { s.work with k := s.work.k + 1 } } := by
  rw [tdLoop, if_neg hk, if_neg (mt rejects_iff.1 hpass), ← hph]

end

/-! ### The statements -/

/-- Settles O27: each testing command has one of the two START actions, and neither reads `A` but to copy it. -/
theorem testStart : Obligations.TestStart := by
  intro s acc hph
  refine ⟨fun i hi => ?filter, fun i hi => ?test⟩
  case filter => rw [exec_start i hph, startOf_filter hi, startFilter]
  case test => rw [exec_start i hph, startOf_test hi, startTest]

/-- Settles O30, by the four cases of `tdLoop`; the commands differ in the limit, and TDIV from CHECK in the end of the
scan. -/
theorem trialDivisionMicroStep : Obligations.TrialDivisionMicroStep := by
  intro s acc hph p hp
  rw [exec_tdLoop p.1 hph, ← klim_filter hp]
  refine ⟨fun hk htdiv => ?verdict, fun hk hcheck => ?check, fun hk hrej => ?reject, fun hk hpass => ?advance⟩
  case verdict =>
    have hop : (cmdFields p.1).op = 0x03 := by obtain h | h := htdiv <;> simp [h, cmdFields]
    exact congrArg _ (tdLoop_end_tdiv hk hop)
  case check =>
    have hop : (cmdFields p.1).op ≠ 0x03 := by obtain h | h := hcheck <;> simp [h, cmdFields]
    rw [tdLoop_end_check hk hop]
  case reject => exact congrArg _ (tdLoop_reject hk hrej)
  case advance => rw [tdLoop_advance hph hk hpass]

end Sys2Proof.Machine
end

section
/-! PROOF. The micro-steps of the witness loop (spec/43_miller_rabin.md R183, R188 to R192) and the witness update (R185): one
equation per case of each rule. The probabilistic commands share every rule; MRD differs from them in the mode alone. -/

namespace Sys2Proof.Machine

/-! ### The witness update (R185) -/

theorem lcg_eq (w n : Nat) : lcg w n = w * 48271 % (n - 4) + 2 := rfl

theorem two_le_lcg (w n : Nat) : 2 ≤ lcg w n := Nat.le_add_left _ _

theorem lcg_le (w : Nat) {n : Nat} (hn : 4 < n) : lcg w n ≤ n - 3 := by
  have hmod := Nat.mod_lt (w * 48271) (Nat.sub_pos_of_lt hn)
  rw [lcg_eq]
  omega

/-! ### The mode of the testing commands (R38, R183) -/

section
variable {acc : Nat}

theorem mode_prob {i : Instr} (hi : i ∈ [Instr.mr acc, .check100 acc, .check1000 acc]) : (cmdFields i).mode = .prob :=
  cmdFields_mode_of_ne_mrd (by rintro rfl; simp at hi)

theorem limit_test {p : Instr × Nat} (hp : p ∈ [(Instr.mr acc, 4), (.mrd, 3), (.check100 acc, 4), (.check1000 acc, 4)]) :
    (cmdFields p.1).mode.limit = p.2 := by
  fin_cases hp <;> rfl

end

section
variable {s : State}

/-! ### The rule `exec` runs in a phase of the loop (R121) -/

theorem exec_mrStart (i : Instr) (hph : s.phase = .mrStart) : exec i s = .next (mrStart (cmdFields i) s) := by
  rw [exec_eq_microStep, microStep, hph]

theorem exec_mrdBound (i : Instr) (hph : s.phase = .mrdBound) : exec i s = .next (mrdBound s) := by
  rw [exec_eq_microStep, microStep, hph]

theorem exec_mrRound (i : Instr) (hph : s.phase = .mrRound) : exec i s = .next (mrRound (cmdFields i) s) := by
  rw [exec_eq_microStep, microStep, hph]

theorem exec_mrCheckX (i : Instr) (hph : s.phase = .mrCheckX) : exec i s = .next (mrCheckX (cmdFields i) s) := by
  rw [exec_eq_microStep, microStep, hph]

theorem exec_mrSq (i : Instr) (hph : s.phase = .mrSq) : exec i s = .next (mrSq (cmdFields i) s) := by
  rw [exec_eq_microStep, microStep, hph]

/-- The clause of the running phase is that of the command `LASTCMD` decodes to. -/
theorem Inv.phaseOk_of_decode {i : Instr} (h : Inv s) (hph : s.phase ≠ .idle) (hd : decode s.lastcmd = .ok i) :
    PhaseOk (cmdFields i) s := by
  obtain ⟨j, hj, hp⟩ := h.phaseOk hph
  obtain rfl : i = j := Except.ok.inj (hd.symm.trans hj)
  exact hp

variable {f : CmdFields}

/-! ### `MR_START` (R183) -/

theorem mrStart_reject (hn : s.work.nn ≤ f.mode.limit) : mrStart f s = completeErr .invalidInput s := if_pos hn

theorem mrStart_setup (hn : f.mode.limit < s.work.nn) :
    mrStart f s = { s with work := { s.work with fd := s.work.nn - 1, fs := 0 }, ret := .mr, phase := .f2Loop } :=
  if_neg hn.not_ge

/-! ### `MR_ROUND` (R189, R190) -/

theorem mrRound_prob_end (hmode : f.mode = .prob) (hi : s.work.i = 0) : mrRound f s = completeOk (.verdict true) s := by
  simp only [mrRound, hmode, if_pos hi]

theorem mrRound_prob_next (hmode : f.mode = .prob) (hi : s.work.i ≠ 0) :
    mrRound f s = startRound { s.work with i := s.work.i - 1, w := lcg s.work.w s.work.nn } s := by
  simp only [mrRound, hmode, if_neg hi]

theorem mrRound_det_end (hmode : f.mode = .det) (hw : s.work.wb < s.work.w) :
    mrRound f s = completeOk (.verdict true) s := by
  simp only [mrRound, hmode, if_pos hw]

theorem mrRound_det_next (hmode : f.mode = .det) (hw : s.work.w ≤ s.work.wb) : mrRound f s = startRound s.work s := by
  simp only [mrRound, hmode, if_neg hw.not_gt]

/-! ### A round passes, `MR_CHECKX` and `MR_SQ` (R191, R192) -/

theorem roundPasses_prob (hmode : f.mode = .prob) (w : Work) :
    roundPasses f w s = { s with work := w, phase := .mrRound } := by
  simp only [roundPasses, hmode]

theorem roundPasses_det (hmode : f.mode = .det) (w : Work) :
    roundPasses f w s = { s with work := { w with w := w.w + 1 }, phase := .mrRound } := by
  simp only [roundPasses, hmode]

theorem mrCheckX_pass (hx : s.work.x = 1 ∨ s.work.x = s.work.nn - 1) : mrCheckX f s = roundPasses f s.work s := if_pos hx

theorem mrCheckX_square (hx : ¬ (s.work.x = 1 ∨ s.work.x = s.work.nn - 1)) :
    mrCheckX f s = { s with work := { s.work with j := squarings s.work.s }, phase := .mrSq } := if_neg hx

theorem mrSq_fail (hj : s.work.j = 0) : mrSq f s = completeOk (.verdict false) s := if_pos hj

theorem mrSq_pass (hj : s.work.j ≠ 0) (hx : s.work.x * s.work.x % s.work.nn = s.work.nn - 1) :
    mrSq f s = roundPasses f { s.work with x := s.work.x * s.work.x % s.work.nn, j := s.work.j - 1 } s :=
  (if_neg hj).trans (if_pos hx)

/-- A squaring that does not end the round stays in the phase, so only `x` and `j` change. -/
theorem mrSq_again (hph : s.phase = .mrSq) (hj : s.work.j ≠ 0)
    (hx : s.work.x * s.work.x % s.work.nn ≠ s.work.nn - 1) :
    mrSq f s = { s with work := { s.work with x := s.work.x * s.work.x % s.work.nn, j := s.work.j - 1 } } := by
  rw [mrSq, if_neg hj, ← hph]
  exact if_neg hx

end

/-! ### The statements -/

/-- Settles O48: the two bounds of R185 meet at 2 when `n = 5`. -/
theorem witnessUpdate : Obligations.WitnessUpdate :=
  ⟨fun w n hn => ⟨lcg_eq w n, two_le_lcg w n, lcg_le w hn⟩,
    fun w => Nat.le_antisymm (lcg_le w (by decide : 4 < 5)) (two_le_lcg w 5)⟩

/-- Settles O31: the limit is the only thing in which the commands differ (R183). -/
theorem witnessLoopStart : Obligations.WitnessLoopStart := by
  intro s acc hph p hp
  rw [exec_mrStart p.1 hph, ← limit_test hp]
  exact ⟨fun hn => congrArg _ (mrStart_reject hn), fun hn => congrArg _ (mrStart_setup hn)⟩

/-- Settles O33: the rule of R188, whatever `LNB` is. -/
theorem witnessBoundMicroStep : Obligations.WitnessBoundMicroStep := by
  intro s hph
  rw [exec_mrdBound _ hph, mrdBound]

/-- Settles O34, by the mode and the two cases of its rule (R189, R190); the modulus is positive because the phase's clause has
the precondition of the loop. -/
theorem roundMicroStep : Obligations.RoundMicroStep := by
  intro s acc hph
  refine ⟨fun i hi => ⟨fun hinv hd => ?modulus, ?prob⟩, ?det⟩
  case modulus =>
    obtain ⟨⟨htest, -⟩, -⟩ := (phaseOk_mrRound hph).1 (hinv.phaseOk_of_decode (by simp [hph]) hd)
    exact Nat.sub_pos_of_lt (htest.four_lt (mode_prob hi))
  case prob =>
    rw [exec_mrRound i hph]
    exact ⟨fun hend => congrArg _ (mrRound_prob_end (mode_prob hi) hend),
      fun hnext => congrArg _ (mrRound_prob_next (mode_prob hi) hnext)⟩
  case det =>
    rw [exec_mrRound _ hph]
    exact ⟨fun hend => congrArg _ (mrRound_det_end rfl hend), fun hnext => congrArg _ (mrRound_det_next rfl hnext)⟩

/-- Settles O35, by the test on `x` (R191); the mode matters only when the round passes. -/
theorem firstTestMicroStep : Obligations.FirstTestMicroStep := by
  intro s acc hph
  refine ⟨fun hx => ⟨fun i hi => ?prob, ?det⟩, fun hx i _ => ?square⟩
  case prob => rw [exec_mrCheckX i hph, mrCheckX_pass hx, roundPasses_prob (mode_prob hi)]
  case det => rw [exec_mrCheckX _ hph, mrCheckX_pass hx, roundPasses_det rfl]
  case square => rw [exec_mrCheckX i hph, mrCheckX_square (not_or.2 hx), squarings]

/-- Settles O36, by the three cases of R192; the mode matters only when the round passes. -/
theorem squaringMicroStep : Obligations.SquaringMicroStep := by
  intro s acc hph
  refine ⟨fun hj i _ => ?fail, fun hj hx => ⟨fun i hi => ?prob, ?det⟩, fun hj hx i _ => ?again⟩
  case fail =>
    rw [exec_mrSq i hph]
    exact congrArg _ (mrSq_fail hj)
  case prob => rw [exec_mrSq i hph, mrSq_pass hj hx, roundPasses_prob (mode_prob hi)]
  case det => rw [exec_mrSq _ hph, mrSq_pass hj hx, roundPasses_det rfl]
  case again => rw [exec_mrSq i hph, mrSq_again hph hj hx]

end Sys2Proof.Machine
end

section
/-! PROOF. The host's writes of the two registers that act busy or idle (spec/45_host_operations.md R223, R225). -/

namespace Sys2Proof.Machine

/-- Settles O13: the effects of the two writes, neither of which looks at `BUSY`; a `CTRL` write that does not reset only sets
`IE`. -/
theorem controlAndStatusWrites : Obligations.ControlAndStatusWrites := by
  intro s v rest
  exact ⟨fun hctrl hno_reset => step_write hctrl (memWrite_ctrl_no_reset hno_reset),
    fun hstatus => step_write hstatus (memWrite_status _ v)⟩

end Sys2Proof.Machine
end

section
/-! PROOF. The command word as a number (spec/30_encoding.md R91, R96): each command has one, the decoder reads it back and the
encoder writes it. -/

namespace Sys2Proof

open Machine

/-- The number of a command's word: its opcode, `T` in bit 8, its accuracy in bits 31:16, and zeros in `rsv` (R91). -/
def Instr.number (i : Instr) : Nat :=
  (cmdFields i).op + 256 * (cmdFields i).tsel.toNat + 65536 * (cmdFields i).acc

theorem Instr.wellFormed_iff_acc (i : Instr) : i.wellFormed = true ↔ (cmdFields i).acc < 65536 := by
  cases i with
  | mr acc => exact decide_eq_true_iff.trans Nat.lt_succ_iff.symm
  | check100 acc => exact decide_eq_true_iff.trans Nat.lt_succ_iff.symm
  | check1000 acc => exact decide_eq_true_iff.trans Nat.lt_succ_iff.symm
  | _ => simp [wellFormed, cmdFields]

theorem op_lt (i : Instr) : (cmdFields i).op < 256 := by cases i <;> simp [cmdFields]

theorem Instr.number_lt_iff (i : Instr) : i.number < 2 ^ 32 ↔ i.wellFormed = true := by
  have hop := op_lt i
  have ht := (cmdFields i).tsel.toNat_lt
  rw [wellFormed_iff_acc, number]
  omega

/-! ### The decoder -/

/-- A word whose fields are a command's and whose reserved bits are 0 is that command; the converse of `cmdFields_of_decode`. -/
theorem decode_of_fields {cw : Word} {i : Instr} (hrsv : reservedField cw = 0)
    (hfields : cmdFields i = { op := opcodeField cw, tsel := tableField cw, acc := accField cw }) : decode cw = .ok i := by
  rw [decode, if_pos hrsv]
  cases i <;> obtain ⟨hop, ht, hacc⟩ := CmdFields.mk.inj hfields <;>
    simp [← hop, ← ht, ← hacc, formatN, formatT, formatA, formatTA]

theorem reservedField_of_decode {cw : Word} {i : Instr} (h : decode cw = .ok i) : reservedField cw = 0 := by
  unfold decode at h
  split at h
  · assumption
  · cases h

theorem tableField_toNat (cw : Word) : (tableField cw).toNat = cw.toNat / 256 % 2 := by
  rw [tableField, BitVec.getLsbD, Nat.testBit_eq_decide_div_mod_eq]
  obtain h | h := Nat.mod_two_eq_zero_or_one (cw.toNat / 2 ^ 8) <;> simp_all

/-- The decoder reads the number of a command and nothing else (R96). -/
theorem decode_eq_ok_iff (cw : Word) (i : Instr) : decode cw = .ok i ↔ cw.toNat = i.number := by
  have ht := tableField_toNat cw
  constructor
  · intro h
    have hrsv := reservedField_of_decode h
    rw [reservedField_eq] at hrsv
    simp only [Instr.number, cmdFields_of_decode h, opcodeField_eq, accField_eq, ht]
    omega
  · intro h
    have hop := op_lt i
    have htsel := (cmdFields i).tsel.toNat_lt
    rw [Instr.number] at h
    refine decode_of_fields ?_ ?_
    · rw [reservedField_eq]
      omega
    · have hop' : (cmdFields i).op = opcodeField cw := by rw [opcodeField_eq]; omega
      have hacc' : (cmdFields i).acc = accField cw := by rw [accField_eq]; omega
      have htoNat : (cmdFields i).tsel.toNat = (tableField cw).toNat := by omega
      have ht' : (cmdFields i).tsel = tableField cw := by
        rw [← Bool.ofNat_toNat (cmdFields i).tsel, htoNat, Bool.ofNat_toNat]
      rw [← hop', ← hacc', ← ht']

/-! ### The encoder -/

/-- Shifting an accuracy of 16 bits loses nothing, and the two halves do not overlap (R99). -/
theorem accWord_toNat {acc : Nat} {low : Word} (hacc : acc < 65536) (hlow : low.toNat < 65536) :
    (accWord acc low).toNat = low.toNat + 65536 * acc := by
  have hlt : acc * 2 ^ 16 < 2 ^ 32 := by omega
  have hshift : (BitVec.ofNat 32 acc <<< 16).toNat = acc * 2 ^ 16 := by
    rw [BitVec.toNat_shiftLeft, BitVec.toNat_ofNat, Nat.mod_eq_of_lt (show acc < 2 ^ 32 by omega), Nat.shiftLeft_eq,
      Nat.mod_eq_of_lt hlt]
  rw [accWord, BitVec.toNat_or, hshift, ← Nat.shiftLeft_eq, ← Nat.shiftLeft_add_eq_or_of_lt (show low.toNat < 2 ^ 16 from hlow),
    Nat.shiftLeft_eq]
  omega

theorem encode_toNat {i : Instr} (h : i.wellFormed = true) : (encode i).toNat = i.number := by
  rw [Instr.wellFormed_iff_acc] at h
  cases i with
  | mr acc => exact accWord_toNat h (by decide)
  | check100 acc => exact accWord_toNat h (by decide)
  | check1000 acc => exact accWord_toNat h (by decide)
  | _ => rfl

/-! ### The statements -/

/-- Settles O1: the encoder writes the command's number and the decoder reads it back. -/
theorem decodeOfEncode : Obligations.DecodeOfEncode :=
  fun i h => (decode_eq_ok_iff _ i).2 (encode_toNat h)

/-- Settles O2: a word that decodes is the command's number, which fits 32 bits only if the command is well formed. -/
theorem encodeOfDecode : Obligations.EncodeOfDecode := by
  intro cw i h
  have hnum := (decode_eq_ok_iff cw i).1 h
  have hwf : i.wellFormed = true := i.number_lt_iff.1 (hnum ▸ cw.isLt)
  exact ⟨hwf, BitVec.eq_of_toNat_eq ((encode_toNat hwf).trans hnum.symm)⟩

/-- A row with the full mask selects the one command whose number it is. -/
theorem fullRow_iff {cw : Word} (m : Word) (i : Instr) (h : i.number = m.toNat) :
    cw &&& 0xFFFFFFFF = m ↔ decode cw = .ok i := by
  rw [decode_eq_ok_iff, h, ← rowMatches_full_iff, rowMatches, beq_iff_eq]

/-- A row with the half mask selects the command with the accuracy of the word. -/
theorem halfRow_iff {cw : Word} (m : Word) (i : Instr) (h : i.number = m.toNat + 65536 * (cw.toNat / 65536)) :
    cw &&& 0x0000FFFF = m ↔ decode cw = .ok i := by
  have hlow := rowMatches_low_iff cw m
  rw [rowMatches, beq_iff_eq] at hlow
  rw [decode_eq_ok_iff, h, hlow]
  omega

/-- Settles O4: each row's match is the low half of its command's number. -/
theorem tableRowsSelectCommands : Obligations.TableRowsSelectCommands :=
  fun _ => ⟨fullRow_iff _ _ rfl, fullRow_iff _ _ rfl, fullRow_iff _ _ rfl, fullRow_iff _ _ rfl, halfRow_iff _ _ rfl,
    fullRow_iff _ _ rfl, halfRow_iff _ _ rfl, halfRow_iff _ _ rfl⟩

/-- Settles O5: the fields of a decoded command, as arithmetic on its word. -/
theorem fieldsOfCommandWord : Obligations.FieldsOfCommandWord := by
  intro cw i h
  have hrsv := reservedField_of_decode h
  have ht := tableField_toNat cw
  rw [reservedField_eq] at hrsv
  rw [cmdFields_of_decode h]
  refine ⟨opcodeField_eq cw, ?_, hrsv, accField_eq cw⟩
  rw [← ht]
  cases tableField cw <;> simp

/-- Settles O6: the six numbers of the commands, and the two reasons of the words that are none. -/
theorem writtenWordsDecode : Obligations.WrittenWordsDecode :=
  ⟨(decode_eq_ok_iff _ _).2 rfl, (decode_eq_ok_iff _ _).2 rfl, (decode_eq_ok_iff _ _).2 rfl, (decode_eq_ok_iff _ _).2 rfl,
    (decode_eq_ok_iff _ _).2 rfl, (decode_eq_ok_iff _ _).2 rfl, rfl, rfl⟩

end Sys2Proof
end

section
/-! PROOF. The register port (spec/20_memory.md R62 to R67; spec/45_host_operations.md R220 to R227): what every index reads, all
that a write can do, and the loading and reading of a big register. -/

namespace Sys2Proof.Machine

/-! ### Reads (R62, R64) -/

/-- A read depends on the registers of the port alone. -/
theorem memRead_congr {s t : State} (hnw : t.nw = s.nw) (hA : t.A = s.A) (hE : t.E = s.E) (hM : t.M = s.M) (hR : t.R = s.R)
    (hS : t.S = s.S) (hie : t.ie = s.ie) (hstatus : t.status = s.status) (hlast : t.lastcmd = s.lastcmd) (idx : PortIdx) :
    memRead t idx = memRead s idx := by
  simp only [memRead, hnw, hA, hE, hM, hR, hS, hie, hstatus, hlast]

theorem toNat_getWord (v t : Nat) : (getWord v t).toNat = v / 2 ^ (32 * t) % 2 ^ 32 := BitVec.toNat_ofNat _ _

/-- The index of word `t` of a window; no window reaches beyond `0x3FF`. -/
theorem toNat_wordIdx {b t : Nat} (h : b + t < 1024) : (BitVec.ofNat 10 (b + t)).toNat = b + t := by
  rw [BitVec.toNat_ofNat, Nat.mod_eq_of_lt h]

/-- The contents of an operand register. -/
def BigReg.get : BigReg → State → Nat
  | .a, s => s.A
  | .e, s => s.E
  | .m, s => s.M

/-- The state with an operand register replaced. -/
def BigReg.set (X : BigReg) (v : Nat) (s : State) : State :=
  match X with
  | .a => { s with A := v }
  | .e => { s with E := v }
  | .m => { s with M := v }

theorem BigReg.base_le (X : BigReg) : X.base ≤ 0x180 := by cases X <;> decide

section
variable {s : State} {t : Nat}

theorem memRead_operand (hw : s.WidthOk) (X : BigReg) (ht : t < s.nw) :
    memRead s (BitVec.ofNat 10 (X.base + t)) = getWord (X.get s) t := by
  have hnw := hw.2
  have hb := X.base_le
  have hidx := toNat_wordIdx (b := X.base) (t := t) (by omega)
  have hmap := portMap_operand hnw X (idx := BitVec.ofNat 10 (X.base + t)) (by omega) (by omega)
  rw [hidx, Nat.add_sub_cancel_left] at hmap
  cases X <;> simp only [memRead, hmap, BigReg.word, BigReg.get]

theorem memRead_result (hw : s.WidthOk) (ht : t < s.nw) : memRead s (BitVec.ofNat 10 (0x200 + t)) = getWord s.R t := by
  have hnw := hw.2
  have hidx := toNat_wordIdx (b := 0x200) (t := t) (by omega)
  have hmap := portMap_r s.nw (BitVec.ofNat 10 (0x200 + t)) (by omega)
  rw [hidx, Nat.add_sub_cancel_left, window_of_lt _ ht] at hmap
  simp only [memRead, hmap]

/-- The rest of an operand's window is reserved. -/
theorem memRead_beyond_operand (X : BigReg) (ht : s.nw ≤ t) (ht' : t < 128) :
    memRead s (BitVec.ofNat 10 (X.base + t)) = 0 := by
  have hidx := toNat_wordIdx (b := X.base) (t := t) (by have := X.base_le; omega)
  apply memRead_reserved
  cases X <;> simp only [BigReg.base] at hidx ⊢
  case a => rw [portMap_a _ _ (by omega) (by omega), window_of_le _ (by omega)]
  case e => rw [portMap_e _ _ (by omega) (by omega), window_of_le _ (by omega)]
  case m => rw [portMap_m _ _ (by omega) (by omega), window_of_le _ (by omega)]

end

/-- Settles O8: the registers by the map, the words of the windows by the lemmas above, and the rest reserved (R64). -/
theorem portMapReads : Obligations.PortMapReads := by
  intro s hw
  have hword (v t : Nat) {x : Word} (h : x = getWord v t) : x.toNat = v / 2 ^ (32 * t) % 2 ^ 32 :=
    (congrArg _ h).trans (toNat_getWord v t)
  refine ⟨rfl, ?param, ?ctrl, rfl, rfl, rfl, rfl, ?low, fun t ht => ?words, fun t ht ht' => ?rest, ?high⟩
  case param =>
    have hnw := hw.2
    exact (BitVec.toNat_ofNat _ _).trans (Nat.mod_eq_of_lt (by omega))
  case ctrl =>
    show ctrlWord s.ie = _
    cases s.ie <;> rfl
  case low => exact fun idx h h' => memRead_reserved (portMap_reserved _ idx h h')
  case words =>
    exact ⟨hword _ _ (memRead_operand hw .a ht), hword _ _ (memRead_operand hw .e ht), hword _ _ (memRead_operand hw .m ht),
      hword _ _ (memRead_result hw ht)⟩
  case rest =>
    exact ⟨memRead_beyond_operand .a ht ht', memRead_beyond_operand .e ht ht', memRead_beyond_operand .m ht ht'⟩
  case high =>
    intro idx h
    apply memRead_reserved
    rw [portMap_r _ _ (by omega), window_of_le _ (by omega)]

/-- Settles O7: `p_rdata` and the event list are not registers of the port (R62). -/
theorem hostReadChangesNothing : Obligations.HostReadChangesNothing := by
  intro s idx rest hev
  refine ⟨hostRead { s with events := rest } idx, by rw [step, hev], rfl, rfl, fun idx' => ?_⟩
  exact memRead_congr rfl rfl rfl rfl rfl rfl rfl rfl rfl idx'

theorem Status.word_code (t : Status) : t.word.toNat / 256 = t.errcode.code := by
  have hflags := t.flagByte_lt
  rw [t.toNat_word]
  omega

/-- A flag in its place of the low byte of `STATUS` is the bit of the word. -/
theorem Status.getLsbD_word (t : Status) (k : Nat) (b : Bool) (h : (t.flagByte + 256 * t.errcode.code) / 2 ^ k % 2 = b.toNat) :
    t.word.getLsbD k = b := by
  rw [BitVec.getLsbD, Nat.testBit_eq_decide_div_mod_eq, t.toNat_word, h]
  cases b <;> rfl

/-- Settles O9: the flags are the binary digits of the low byte, and the error code stands above it (R28). -/
theorem statusWordBits : Obligations.StatusWordBits := by
  intro s
  show s.status.word.getLsbD 0 = _ ∧ s.status.word.getLsbD 1 = _ ∧ s.status.word.getLsbD 2 = _ ∧ s.status.word.getLsbD 3 = _ ∧
    s.status.word.getLsbD 4 = _ ∧ s.status.word.getLsbD 5 = _ ∧ s.status.word.toNat / 64 % 4 = 0 ∧
    s.status.word.toNat / 256 = _
  obtain ⟨st, hst⟩ : ∃ st, st = s.status := ⟨_, rfl⟩
  rw [← hst]
  have hbusy := st.busy.toNat_lt
  have hdone := st.done.toNat_lt
  have herr := st.err.toNat_lt
  have hverdict := st.verdict.toNat_lt
  have hvvalid := st.vvalid.toNat_lt
  have hwign := st.wign.toNat_lt
  refine ⟨st.getLsbD_word 0 _ ?_, st.getLsbD_word 1 _ ?_, st.getLsbD_word 2 _ ?_, st.getLsbD_word 3 _ ?_,
    st.getLsbD_word 4 _ ?_, st.getLsbD_word 5 _ ?_, st.word_reserved.1, ?_⟩
  case refine_7 =>
    rw [st.word_code]
    cases st.errcode <;> rfl
  all_goals
    unfold Status.flagByte
    omega

/-! ### All that a write can do (R63, R66) -/

section
variable {s : State}

theorem memWrite_operand {idx : PortIdx} {t : Nat} (v : Word) (X : BigReg) (hmap : portMap s.nw idx = X.word t) :
    memWrite s idx v = whenIdle s fun u => X.set (setWord (X.get u) t v) u := by
  cases X <;> simp only [memWrite, hmap, BigReg.word] <;> rfl

/-- Everything a write of `v` at `idx` can do. -/
inductive WriteEffect (s : State) (idx : PortIdx) (v : Word) : Prop
  | ignored (h : memWrite s idx v = s)
  | busy (hbusy : s.status.busy = true) (h : memWrite s idx v = ignoreWrite s)
  | ctrl (hidx : idx = ctrlIdx) (h : memWrite s idx v = writeCtrl v s)
  | status (hidx : idx = statusIdx) (h : memWrite s idx v = { s with status := s.status.writeOneToClear v })
  | cmd (hidx : idx = cmdIdx) (hidle : s.status.busy = false) (h : memWrite s idx v = acceptCmd v s)
  | operand (X : BigReg) (hidle : s.status.busy = false) (x : Nat) (h : memWrite s idx v = X.set x s)

theorem writeEffect_whenIdle {idx : PortIdx} {v : Word} {effect : State → State} (h : memWrite s idx v = whenIdle s effect)
    (heffect : s.status.busy = false → memWrite s idx v = effect s → WriteEffect s idx v) : WriteEffect s idx v := by
  cases hb : s.status.busy with
  | true => exact .busy hb (h.trans (whenIdle_busy hb effect))
  | false => exact heffect hb (h.trans (whenIdle_idle hb effect))

theorem memWrite_effect (s : State) (idx : PortIdx) (v : Word) : WriteEffect s idx v := by
  cases hmap : portMap s.nw idx with
  | ctrl => exact .ctrl (portMap_eq_ctrl hmap) (by simp only [memWrite, hmap])
  | status => exact .status (portMap_eq_status hmap) (by simp only [memWrite, hmap])
  | cmd => exact writeEffect_whenIdle (by simp only [memWrite, hmap]) (.cmd (portMap_eq_cmd hmap))
  | aWord t => exact writeEffect_whenIdle (memWrite_operand v .a hmap) fun hidle h => .operand .a hidle _ h
  | eWord t => exact writeEffect_whenIdle (memWrite_operand v .e hmap) fun hidle h => .operand .e hidle _ h
  | mWord t => exact writeEffect_whenIdle (memWrite_operand v .m hmap) fun hidle h => .operand .m hidle _ h
  | _ => exact .ignored (by simp only [memWrite, hmap])

end

/-! ### One word of an operand register (R221) -/

section
variable {s : State} {X : BigReg} {t : Nat}

@[simp] theorem BigReg.get_set (X : BigReg) (v : Nat) (s : State) : X.get (X.set v s) = v := by cases X <;> rfl
@[simp] theorem BigReg.set_nw (X : BigReg) (v : Nat) (s : State) : (X.set v s).nw = s.nw := by cases X <;> rfl
@[simp] theorem BigReg.set_status (X : BigReg) (v : Nat) (s : State) : (X.set v s).status = s.status := by cases X <;> rfl
@[simp] theorem BigReg.set_phase (X : BigReg) (v : Nat) (s : State) : (X.set v s).phase = s.phase := by cases X <;> rfl
@[simp] theorem BigReg.set_rngReq (X : BigReg) (v : Nat) (s : State) : (X.set v s).rngReq = s.rngReq := by cases X <;> rfl

/-- Outside the window of a register its contents are not read. -/
theorem memRead_set_outside {idx : PortIdx} (v : Nat) (h : ∀ u, portMap s.nw idx ≠ X.word u) :
    memRead (X.set v s) idx = memRead s idx := by
  cases X with
  | a =>
    cases hmap : portMap s.nw idx with
    | aWord u => exact absurd hmap (h u)
    | _ => simp only [memRead, BigReg.set, hmap]
  | e =>
    cases hmap : portMap s.nw idx with
    | eWord u => exact absurd hmap (h u)
    | _ => simp only [memRead, BigReg.set, hmap]
  | m =>
    cases hmap : portMap s.nw idx with
    | mWord u => exact absurd hmap (h u)
    | _ => simp only [memRead, BigReg.set, hmap]

/-- Replacing word `t` of a register changes what is read at the index of that word only. -/
theorem memRead_set_setWord_other (hw : s.WidthOk) {idx : PortIdx} (v : Word) (hidx : idx ≠ BitVec.ofNat 10 (X.base + t)) :
    memRead (X.set (setWord (X.get s) t v) s) idx = memRead s idx := by
  by_cases hin : ∃ u, portMap s.nw idx = X.word u
  case neg => exact memRead_set_outside _ (not_exists.1 hin)
  case pos =>
    obtain ⟨u, hmap⟩ := hin
    obtain ⟨hlo, hhi⟩ := portMap_eq_word X hmap
    obtain ⟨w, hlt, rfl⟩ : ∃ w < s.nw, idx = BitVec.ofNat 10 (X.base + w) :=
      ⟨idx.toNat - X.base, by omega, by rw [Nat.add_sub_cancel' hlo, BitVec.ofNat_toNat, BitVec.setWidth_eq]⟩
    have hne : w ≠ t := by rintro rfl; exact hidx rfl
    rw [memRead_operand (by rwa [State.WidthOk, BigReg.set_nw]) X (by rwa [BigReg.set_nw]), BigReg.get_set,
      getWord_setWord_other _ _ hne, memRead_operand hw X hlt]

theorem memRead_set_setWord_same (hw : s.WidthOk) (v : Word) (ht : t < s.nw) :
    memRead (X.set (setWord (X.get s) t v) s) (BitVec.ofNat 10 (X.base + t)) = v := by
  rw [memRead_operand (by rwa [State.WidthOk, BigReg.set_nw]) X (by rwa [BigReg.set_nw]), BigReg.get_set,
    getWord_setWord_same]

/-- The index of word `t` is the port's word `t` of the register. -/
theorem portMap_wordIdx (hw : s.WidthOk) (X : BigReg) (ht : t < s.nw) :
    portMap s.nw (BitVec.ofNat 10 (X.base + t)) = X.word t := by
  have hnw := hw.2
  have hidx := toNat_wordIdx (b := X.base) (t := t) (by have := X.base_le; omega)
  rw [portMap_operand hnw X (by omega) (by omega), hidx, Nat.add_sub_cancel_left]

theorem memWrite_wordIdx_busy (hw : s.WidthOk) (hbusy : s.status.busy = true) (v : Word) (ht : t < s.nw) :
    memWrite s (BitVec.ofNat 10 (X.base + t)) v = ignoreWrite s :=
  (memWrite_operand v X (portMap_wordIdx hw X ht)).trans (whenIdle_busy hbusy _)

theorem memWrite_wordIdx_idle (hw : s.WidthOk) (hidle : s.status.busy = false) (v : Word) (ht : t < s.nw) :
    memWrite s (BitVec.ofNat 10 (X.base + t)) v = X.set (setWord (X.get s) t v) s :=
  (memWrite_operand v X (portMap_wordIdx hw X ht)).trans (whenIdle_idle hidle _)

/-- A step that writes a word of an operand register while idle. -/
theorem step_write_operand {v : Word} {rest : List Event} (hw : s.WidthOk) (hidle : s.status.busy = false) (ht : t < s.nw)
    (hev : s.events = .write (BitVec.ofNat 10 (X.base + t)) v :: rest) :
    step s = .next (X.set (setWord (X.get s) t v) { s with events := rest }) := by
  rw [step_write hev (memWrite_wordIdx_idle (s := { s with events := rest }) hw hidle v ht)]
  cases X <;> rfl

end

/-- Settles O10: the write is dropped while busy, and while idle it replaces one word of one register (R221). -/
theorem operandWrite : Obligations.OperandWrite := by
  intro s X t v rest hw ht hev
  refine ⟨fun hbusy => ?busy, fun hidle => ?idle⟩
  case busy => exact step_write hev (memWrite_wordIdx_busy (s := { s with events := rest }) hw hbusy v ht)
  case idle =>
    have hget : X.get { s with events := rest } = X.get s := by cases X <;> rfl
    refine ⟨_, step_write_operand hw hidle ht hev, ?_, fun idx hne => ?_, ?_⟩
    · rw [← hget]
      exact memRead_set_setWord_same (s := { s with events := rest }) hw v ht
    · rw [← hget]
      exact memRead_set_setWord_other (s := { s with events := rest }) hw v hne
    · cases X <;> rfl

/-! ### Loading and reading a whole register (R100, R227) -/

/-- A register that held `old` after the first `t` writes of `LDBIG X, v`. -/
def loaded (v old t : Nat) : Nat := v % 2 ^ (32 * t) + 2 ^ (32 * t) * (old / 2 ^ (32 * t))

theorem loaded_zero (v old : Nat) : loaded v old 0 = old := by simp [loaded, Nat.mod_one]

theorem loaded_full {v old n : Nat} (hv : v < 2 ^ (32 * n)) (hold : old < 2 ^ (32 * n)) : loaded v old n = v := by
  rw [loaded, Nat.mod_eq_of_lt hv, Nat.div_eq_of_lt hold, Nat.mul_zero, Nat.add_zero]

/-- The write of word `t` loads 32 more bits. -/
theorem setWord_loaded (v old t : Nat) : setWord (loaded v old t) t (getWord v t) = loaded v old (t + 1) := by
  have hP : 0 < 2 ^ (32 * t) := Nat.two_pow_pos _
  have hpow : 2 ^ (32 * (t + 1)) = 2 ^ (32 * t) * 2 ^ 32 := two_pow_split (by omega)
  have hlow : loaded v old t % 2 ^ (32 * t) = v % 2 ^ (32 * t) := by
    rw [loaded, Nat.add_mul_mod_self_left, Nat.mod_mod]
  have hhigh : loaded v old t / (2 ^ (32 * t) * 2 ^ 32) = old / (2 ^ (32 * t) * 2 ^ 32) := by
    rw [loaded, ← Nat.div_div_eq_div_mul, Nat.add_mul_div_left _ _ hP, Nat.div_eq_of_lt (Nat.mod_lt _ hP), Nat.zero_add,
      Nat.div_div_eq_div_mul]
  rw [setWord, hlow, toNat_getWord, hpow, hhigh, loaded, hpow, Nat.mod_mul]
  ring

theorem run_succ_of_step {s u : State} (n : Nat) (h : step s = .next u) : core.run (n + 1) s = core.run n u := by
  have hcore : core.step s = .next u := h
  simp only [Host.Core.run, hcore]

/-- The last `k` writes of `LDBIG X, v`, from word `t` on. -/
theorem run_ldbig (X : BigReg) (v old : Nat) (rest : List Event) (k t : Nat) (s : State) (hw : s.WidthOk)
    (hidle : s.status.busy = false) (hk : t + k ≤ s.nw) (hget : X.get s = loaded v old t)
    (hev : s.events =
      (List.range' t k).map (fun t => Event.write (BitVec.ofNat 10 (X.base + t)) (getWord v t)) ++ rest) :
    core.run k s = .next (X.set (loaded v old (t + k)) { s with events := rest }) := by
  induction k generalizing t s with
  | zero =>
    show Host.Outcome.next s = _
    rw [Nat.add_zero, ← hget, show rest = s.events from hev.symm]
    cases X <;> rfl
  | succ k ih =>
    rw [List.range'_succ, List.map_cons, List.cons_append] at hev
    rw [run_succ_of_step k (step_write_operand hw hidle (by omega) hev), hget, setWord_loaded, ih (t + 1)]
    · rw [Nat.add_assoc, Nat.add_comm 1]
      cases X <;> rfl
    · rwa [State.WidthOk, BigReg.set_nw]
    · rwa [BigReg.set_status]
    · rw [BigReg.set_nw]
      show t + 1 + k ≤ s.nw
      omega
    · rw [BigReg.get_set]
    · cases X <;> rfl

theorem rdbig_prefix {s : State} (hw : s.WidthOk) (n : Nat) (hn : n ≤ s.nw) :
    bigOfWords (fun t => memRead s (BitVec.ofNat 10 (0x200 + t))) n = s.R % 2 ^ (32 * n) := by
  induction n with
  | zero => simp [bigOfWords, Nat.mod_one]
  | succ n ih =>
    have hpow : 2 ^ (32 * (n + 1)) = 2 ^ (32 * n) * 2 ^ 32 := two_pow_split (by omega)
    rw [bigOfWords, ih (by omega), memRead_result hw (by omega), toNat_getWord, hpow, Nat.mod_mul,
      Nat.mul_comm (2 ^ (32 * n))]

/-- Settles O14, by induction on the words still to be written and, for the reads, on the words added up; both end with the
whole register because it and the new value are below `2 ^ W` (R227). -/
theorem loadAndReadBigRegisters : Obligations.LoadAndReadBigRegisters := by
  intro s X v rest hw hidle hv hR ⟨hA, hE, hM⟩ hev
  refine ⟨?load, ?read⟩
  case load =>
    have hold : X.get s < 2 ^ s.W := by cases X <;> assumption
    rw [ldbig, List.range_eq_range'] at hev
    rw [run_ldbig X v (X.get s) rest s.nw 0 s hw hidle (by omega) (loaded_zero v _).symm hev, Nat.zero_add,
      loaded_full hv hold]
    cases X <;> rfl
  case read => rw [rdbigValue, rdbig_prefix hw s.nw le_rfl]; exact Nat.mod_eq_of_lt hR

end Sys2Proof.Machine
end

section
/-! PROOF. Everything a micro-step can do to what the host sees (spec/40_command_lifecycle.md R121, R127, R128, R130), and the
invariants that follow: `STATUS` (R28), the sequencer (R36, R40), and the whole of `Inv`. -/

namespace Sys2Proof.Machine

/-! ### What a micro-step leaves, and how it can end -/

/-- What no micro-step changes: operands, `CTRL`, `LASTCMD` and the environment's `p_rdata` and events (R26). -/
structure Framed (s t : State) : Prop where
  nw      : t.nw = s.nw
  A       : t.A = s.A
  E       : t.E = s.E
  M       : t.M = s.M
  ie      : t.ie = s.ie
  lastcmd : t.lastcmd = s.lastcmd
  rdata   : t.rdata = s.rdata
  events  : t.events = s.events

/-- A micro-step goes on with the command, or it is one of the three commits (R127, R128). A result is the exit of a loop whose
`ret` is `CMD` (R143, R148), and a verdict is given in one of three phases (R162, R189, R190, R192). -/
inductive Ending (s t : State) : Prop
  | runs (status : t.status = s.status) (R : t.R = s.R) (S : t.S = s.S) (idle : t.phase = .idle ↔ s.phase = .idle)
  | result (phase : t.phase = .idle) (status : t.status = s.status.finished) (ret : s.ret = .cmd)
      (origin : s.phase = .pmLoop ∧ t.S = s.S ∨ s.phase = .f2Loop)
  | verdict (phase : t.phase = .idle) (R : t.R = s.R) (S : t.S = s.S) (q : Bool) (status : t.status = s.status.judged q)
      (origin : s.phase ∈ [Phase.tdLoop, .mrRound, .mrSq])
  | error (phase : t.phase = .idle) (R : t.R = s.R) (S : t.S = s.S) (request : t.rngReq = false) (c : ErrCode)
      (code : c ∈ [ErrCode.invalidInput, .sourceUnavailable]) (status : t.status = s.status.failed c)

/-- `rng_req` is 1 exactly in `MR_SEED` (R40). -/
def RequestOk (s : State) : Prop := s.rngReq = true ↔ s.phase = .mrSeed

/-- `t` may follow `s` by a micro-step. -/
structure MicroEffect (s t : State) : Prop where
  frame   : Framed s t
  ending  : Ending s t
  request : RequestOk s → RequestOk t

/-- The phases in which a command runs without waiting for the source. -/
def Phase.plain : Phase → Bool
  | .idle => false
  | .mrSeed => false
  | _ => true

theorem Phase.plain_iff {p : Phase} : p.plain = true ↔ p ≠ .idle ∧ p ≠ .mrSeed := by cases p <;> decide

section
variable {s : State}

theorem framed_completeOk (res : Result) : Framed s (completeOk res s) := by
  constructor <;> simp

/-- A commit without error leaves `rng_req`, which is 0 outside `MR_SEED`. -/
theorem request_completeOk (h : s.phase.plain = true) (res : Result) : RequestOk s → RequestOk (completeOk res s) := by
  obtain ⟨-, hseed⟩ := Phase.plain_iff.1 h
  simp [RequestOk, hseed]

theorem effect_big (hph : s.phase = .pmLoop) (hret : s.ret = .cmd) (v : Nat) : MicroEffect s (completeOk (.big v) s) :=
  ⟨framed_completeOk _, .result rfl rfl hret (.inl ⟨hph, rfl⟩), request_completeOk (by rw [hph]; rfl) _⟩

theorem effect_factors (hph : s.phase = .f2Loop) (hret : s.ret = .cmd) (u v : Nat) :
    MicroEffect s (completeOk (.factors u v) s) :=
  ⟨framed_completeOk _, .result rfl rfl hret (.inr hph), request_completeOk (by rw [hph]; rfl) _⟩

theorem effect_verdict (h : s.phase ∈ [Phase.tdLoop, .mrRound, .mrSq]) (q : Bool) :
    MicroEffect s (completeOk (.verdict q) s) := by
  have hplain : ∀ p ∈ [Phase.tdLoop, .mrRound, .mrSq], p.plain = true := by decide
  exact ⟨framed_completeOk _, .verdict rfl rfl rfl q rfl h, request_completeOk (hplain _ h) _⟩

theorem effect_error (c : ErrCode) (hc : c ∈ [ErrCode.invalidInput, .sourceUnavailable]) : MicroEffect s (completeErr c s) :=
  ⟨⟨rfl, rfl, rfl, rfl, rfl, rfl, rfl, rfl⟩, .error rfl rfl rfl rfl c hc rfl, fun _ => by simp [RequestOk]⟩

/-- A micro-step between phases that do not wait changes working registers, `ret` and the phase only. -/
theorem effect_runs (h : s.phase.plain = true) (w : Work) (rt : Ret) {p : Phase} (hp : p.plain = true) :
    MicroEffect s { s with work := w, ret := rt, phase := p } := by
  obtain ⟨hidle, hseed⟩ := Phase.plain_iff.1 h
  obtain ⟨hidle', hseed'⟩ := Phase.plain_iff.1 hp
  refine ⟨⟨rfl, rfl, rfl, rfl, rfl, rfl, rfl, rfl⟩, .runs rfl rfl rfl ?_, ?_⟩
  · simp [hidle, hidle']
  · simp [RequestOk, hseed, hseed']

/-! ### Phase by phase -/

theorem pmLoop_effect (hph : s.phase = .pmLoop) : MicroEffect s (pmLoop s) := by
  have h : s.phase.plain = true := by rw [hph]; rfl
  unfold pmLoop
  split
  · cases hret : s.ret
    · exact effect_big hph hret _
    · exact effect_runs h _ _ rfl
  · exact effect_runs h _ _ rfl

theorem f2Loop_effect (f : CmdFields) (hph : s.phase = .f2Loop) : MicroEffect s (f2Loop f s) := by
  have h : s.phase.plain = true := by rw [hph]; rfl
  unfold f2Loop
  split
  · exact effect_runs h _ _ rfl
  · cases hret : s.ret
    · exact effect_factors hph hret _ _
    · cases f.mode
      · exact ⟨⟨rfl, rfl, rfl, rfl, rfl, rfl, rfl, rfl⟩, .runs rfl rfl rfl (by simp [hph]), fun _ => by simp [RequestOk]⟩
      · exact effect_runs h _ _ rfl

theorem tdLoop_effect (f : CmdFields) (hph : s.phase = .tdLoop) : MicroEffect s (tdLoop f s) := by
  have h : s.phase.plain = true := by rw [hph]; rfl
  have hmem : s.phase ∈ [Phase.tdLoop, .mrRound, .mrSq] := by rw [hph]; decide
  unfold tdLoop
  split
  · split
    · exact effect_verdict hmem true
    · exact effect_runs h _ _ rfl
  · split
    · exact effect_verdict hmem false
    · exact effect_runs h _ _ rfl

theorem mrStart_effect (f : CmdFields) (h : s.phase.plain = true) : MicroEffect s (mrStart f s) := by
  unfold mrStart
  split
  · exact effect_error _ (by decide)
  · exact effect_runs h _ _ rfl

theorem mrSeed_effect (f : CmdFields) (h : s.phase = .mrSeed) : MicroEffect s (mrSeed f s) := by
  have hframe {u : State} (hu : u = { s with rng := u.rng, work := u.work, rngReq := u.rngReq, phase := u.phase }) :
      Framed s u := by rw [hu]; exact ⟨rfl, rfl, rfl, rfl, rfl, rfl, rfl, rfl⟩
  unfold mrSeed
  split
  · exact ⟨hframe rfl, .runs rfl rfl rfl Iff.rfl, id⟩
  · split
    · exact ⟨⟨rfl, rfl, rfl, rfl, rfl, rfl, rfl, rfl⟩, .error rfl rfl rfl rfl _ (by decide) rfl, fun _ => by simp [RequestOk]⟩
    split
    · exact ⟨hframe rfl, .runs rfl rfl rfl (by simp [h]), fun _ => by simp [RequestOk]⟩
    · exact ⟨hframe rfl, .runs rfl rfl rfl Iff.rfl, id⟩

theorem mrRound_effect (f : CmdFields) (hph : s.phase = .mrRound) : MicroEffect s (mrRound f s) := by
  have h : s.phase.plain = true := by rw [hph]; rfl
  have hmem : s.phase ∈ [Phase.tdLoop, .mrRound, .mrSq] := by rw [hph]; decide
  unfold mrRound
  cases f.mode <;> dsimp only <;> split
  · exact effect_verdict hmem true
  · exact effect_runs h _ _ rfl
  · exact effect_verdict hmem true
  · exact effect_runs h _ _ rfl

theorem roundPasses_effect (f : CmdFields) (h : s.phase.plain = true) (w : Work) : MicroEffect s (roundPasses f w s) := by
  unfold roundPasses
  cases f.mode <;> exact effect_runs h _ _ rfl

theorem mrCheckX_effect (f : CmdFields) (h : s.phase.plain = true) : MicroEffect s (mrCheckX f s) := by
  unfold mrCheckX
  split
  · exact roundPasses_effect f h _
  · exact effect_runs h _ _ rfl

theorem mrSq_effect (f : CmdFields) (hph : s.phase = .mrSq) : MicroEffect s (mrSq f s) := by
  have h : s.phase.plain = true := by rw [hph]; rfl
  unfold mrSq
  split
  · exact effect_verdict (by rw [hph]; decide) false
  dsimp only
  split
  · exact roundPasses_effect f h _
  · exact effect_runs h _ _ rfl

theorem startOf_effect (i : Instr) (h : s.phase.plain = true) : MicroEffect s (startOf i s) := by
  cases i with
  | powmod =>
    show MicroEffect s (startPowmod s)
    unfold startPowmod
    split
    · exact effect_error _ (by decide)
    · exact effect_runs h _ _ rfl
  | fac2 =>
    show MicroEffect s (startFac2 s)
    unfold startFac2
    split
    · exact effect_error _ (by decide)
    · exact effect_runs h _ _ rfl
  | _ => exact effect_runs h _ _ rfl

/-- Everything a micro-step of any command can do, from any state. -/
theorem microStep_effect (i : Instr) (s : State) : MicroEffect s (microStep (startOf i) (cmdFields i) s) := by
  unfold microStep
  cases hph : s.phase with
  | idle => exact ⟨⟨rfl, rfl, rfl, rfl, rfl, rfl, rfl, rfl⟩, .runs rfl rfl rfl Iff.rfl, id⟩
  | start => exact startOf_effect i (by rw [hph]; rfl)
  | pmLoop => exact pmLoop_effect hph
  | f2Loop => exact f2Loop_effect _ hph
  | tdLoop => exact tdLoop_effect _ hph
  | mrStart => exact mrStart_effect _ (by rw [hph]; rfl)
  | mrSeed => exact mrSeed_effect _ hph
  | mrdBound => exact effect_runs (by rw [hph]; rfl) _ _ rfl
  | mrRound => exact mrRound_effect _ hph
  | mrCheckX => exact mrCheckX_effect _ (by rw [hph]; rfl)
  | mrSq => exact mrSq_effect _ hph

end

/-! ### What every step keeps -/

/-- A property that `p_rdata` and the events do not touch is kept by every step if micro-steps of a busy engine, host writes and
resets keep it. -/
theorem step_keeps {P : State → Prop} (henv : ∀ u rest x, P u → P { u with events := rest, rdata := x })
    (hmicro : ∀ u i, u.status.busy = true → P u → P (microStep (startOf i) (cmdFields i) u))
    (hwrite : ∀ u idx v, P u → P (memWrite u idx v)) (hreset : ∀ u, P u → P (resetBlock u)) {s t : State} (h : P s)
    (hstep : step s = .next t) : P t := by
  have hengine {u : State} (hu : P u) (he : engineStep u = .next t) : P t := by
    obtain ⟨-, rfl⟩ | ⟨i, hb, -, rfl⟩ := engineStep_cases he
    · exact hu
    · exact hmicro u i hb hu
  obtain ⟨-, he⟩ | ⟨rest, -, he⟩ | ⟨idx, rest, -, rfl⟩ | ⟨idx, v, rest, -, rfl⟩ |
    ⟨rest, -, -, rfl⟩ | ⟨rest, -, -, he⟩ | ⟨rest, -, rfl⟩ := step_cases hstep
  · exact hengine h he
  · exact hengine (henv s rest s.rdata h) he
  · exact henv s rest _ h
  · exact hwrite _ idx v (henv s rest s.rdata h)
  · exact henv s rest _ h
  · exact hengine (henv s s.events _ h) he
  · exact hreset _ (henv s rest s.rdata h)

/-! ### `STATUS` (R28) -/

section
variable {s t : State}

/-- While busy `STATUS` shows nothing but `BUSY` and `WIGN`. -/
theorem StatusOk.eq_running {u : Status} (h : StatusOk u) (hb : u.busy = true) : u = Status.running u.wign := by
  obtain ⟨herr, -, hverdict, hbusy⟩ := h
  obtain ⟨hdone, herr0, hvvalid⟩ := hbusy hb
  have hverdict0 : u.verdict = false := by by_contra hne; simp_all
  have hcode : u.errcode = .none := by by_contra hne; simp_all
  cases u
  simp_all [Status.running]

theorem statusOk_ofResult (w : Bool) : StatusOk (Status.ofResult w) := by cases w <;> unfold StatusOk <;> decide
theorem statusOk_ofVerdict (w q : Bool) : StatusOk (Status.ofVerdict w q) := by
  cases w <;> cases q <;> unfold StatusOk <;> decide
theorem statusOk_ofError (w : Bool) {c : ErrCode} (hc : c ≠ .none) : StatusOk (Status.ofError w c) := by
  simp [StatusOk, Status.ofError, hc]
theorem statusOk_running (w : Bool) : StatusOk (Status.running w) := by cases w <;> unfold StatusOk <;> decide
theorem statusOk_reset : StatusOk Status.reset := by unfold StatusOk; decide

/-- Only `DONE` and `WIGN` differ, and `DONE` does not rise. -/
theorem StatusOk.of_done_le {u v : Status} (h : StatusOk u) (hv : v = { u with done := v.done, wign := v.wign })
    (hdone : v.done = true → u.done = true) : StatusOk v := by
  obtain ⟨herr, hvvalid, hverdict, hbusy⟩ := h
  rw [hv]
  refine ⟨herr, hvvalid, hverdict, fun hb => ?_⟩
  obtain ⟨hdone0, hrest⟩ := hbusy hb
  exact ⟨Bool.eq_false_iff.2 fun hne => by simp [hdone hne] at hdone0, hrest⟩

/-- The commits of a running command leave one of the three statuses of R127 and R128. -/
theorem MicroEffect.statusOk (h : MicroEffect s t) (hok : StatusOk s.status) (hb : s.status.busy = true) :
    StatusOk t.status := by
  have hrun := hok.eq_running hb
  cases h.ending with
  | runs hstatus => rwa [hstatus]
  | result _ hstatus => rw [hstatus, hrun]; exact statusOk_ofResult _
  | verdict _ _ _ q hstatus => rw [hstatus, hrun]; exact statusOk_ofVerdict _ q
  | error _ _ _ _ c hc hstatus => rw [hstatus, hrun]; exact statusOk_ofError _ (by rintro rfl; simp at hc)

theorem acceptCmd_statusOk (cw : Word) (s : State) : StatusOk (acceptCmd cw s).status := by
  cases hlegal : legal cw with
  | true => rw [acceptCmd_legal s hlegal]; exact statusOk_running _
  | false => rw [acceptCmd_illegal s hlegal]; exact statusOk_ofError s.status.wign (by decide)

theorem memWrite_statusOk (h : StatusOk s.status) (idx : PortIdx) (v : Word) : StatusOk (memWrite s idx v).status := by
  cases memWrite_effect s idx v with
  | ignored he => rwa [he]
  | busy _ he => rw [he]; exact h.of_done_le rfl id
  | ctrl _ he =>
    rw [he, writeCtrl]
    split
    · exact statusOk_reset
    · exact h
  | status _ he => rw [he]; exact h.of_done_le rfl (by simp only [Status.writeOneToClear_done, Bool.and_eq_true]; exact And.left)
  | cmd _ _ he => rw [he]; exact acceptCmd_statusOk v s
  | operand X _ x he => rwa [he, BigReg.set_status]

/-- Settles O55: a write, a reset and a micro-step of a busy engine each keep it (R28). -/
theorem stepKeepsStatusConsistent : Obligations.StepKeepsStatusConsistent := fun _ _ =>
  step_keeps (P := fun u => StatusOk u.status) (fun _ _ _ h => h) (fun u i hb h => (microStep_effect i u).statusOk h hb)
    (fun _ idx v h => memWrite_statusOk h idx v) (fun _ _ => statusOk_reset)

/-! ### The sequencer (R36, R40) -/

/-- A commit is what clears `BUSY` and what goes to `IDLE`. -/
theorem MicroEffect.sequencerOk (h : MicroEffect s t) (hok : SequencerOk s) : SequencerOk t := by
  obtain ⟨hidle, hreq⟩ := hok
  refine ⟨?_, h.request hreq⟩
  cases h.ending with
  | runs hstatus _ _ hphase => rw [hphase, hstatus, hidle]
  | result hphase hstatus => simp [hphase, hstatus]
  | verdict hphase _ _ q hstatus => simp [hphase, hstatus]
  | error hphase _ _ _ c _ hstatus => simp [hphase, hstatus]

theorem acceptCmd_sequencerOk {cw : Word} (h : SequencerOk s) (hidle : s.status.busy = false) :
    SequencerOk (acceptCmd cw s) := by
  obtain ⟨hphase, hreq⟩ := h
  cases hlegal : legal cw with
  | true => rw [acceptCmd_legal s hlegal]; simp [SequencerOk, Status.running, hreq, hphase.2 hidle]
  | false => rw [acceptCmd_illegal s hlegal]; simp [SequencerOk]

theorem resetBlock_sequencerOk (s : State) : SequencerOk (resetBlock s) := by simp [SequencerOk, Status.reset]

theorem memWrite_sequencerOk (h : SequencerOk s) (idx : PortIdx) (v : Word) : SequencerOk (memWrite s idx v) := by
  cases memWrite_effect s idx v with
  | ignored he => rwa [he]
  | busy _ he => rw [he]; exact h
  | ctrl _ he =>
    rw [he, writeCtrl]
    split
    · exact resetBlock_sequencerOk s
    · exact h
  | status _ he => rw [he]; exact h
  | cmd _ hidle he => rw [he]; exact acceptCmd_sequencerOk h hidle
  | operand X _ x he => rw [he]; simpa [SequencerOk] using h

/-- Settles O56: a write, a reset and a micro-step each keep it (R36, R40). -/
theorem stepKeepsSequencerConsistent : Obligations.StepKeepsSequencerConsistent := fun _ _ =>
  step_keeps (P := SequencerOk) (fun _ _ _ h => h) (fun u i _ h => (microStep_effect i u).sequencerOk h)
    (fun _ idx v h => memWrite_sequencerOk h idx v) (fun u _ => resetBlock_sequencerOk u)

end

/-! ### The invariant -/

theorem inv_iff {s : State} : Inv s ↔ DataOk s ∧ StatusOk s.status ∧ SequencerOk s := by
  constructor
  · intro h
    obtain ⟨-, -, hstatus, hseq, -⟩ := id h
    exact ⟨h.dataOk, hstatus, hseq⟩
  · rintro ⟨⟨hwidth, hranges, hcommand⟩, hstatus, hseq⟩
    exact ⟨hwidth, rangeOk_iff.2 hranges, hstatus, hseq, hcommand⟩

/-- Settles O52: the data, `STATUS` and the sequencer are each inductive by themselves. -/
theorem stepKeepsTheInvariant : Obligations.StepKeepsTheInvariant := by
  intro s t hinv hstep
  obtain ⟨hdata, hstatus, hseq⟩ := inv_iff.1 hinv
  exact inv_iff.2 ⟨(hdata.step hstep).2, stepKeepsStatusConsistent s t hstatus hstep,
    stepKeepsSequencerConsistent s t hseq hstep⟩

/-- Settles O51: every register is 0 and the engine rests (R43). -/
theorem resetMeetsTheInvariant : Obligations.ResetMeetsTheInvariant := by
  intro nw hlo hhi
  have h0 (n : Nat) : 0 < 2 ^ n := Nat.two_pow_pos n
  refine inv_iff.2 ⟨.ofIdle ⟨hlo, hhi⟩ ?_ rfl, statusOk_reset, by simp [SequencerOk, State.resetFor, Status.reset]⟩
  exact ⟨h0 _, h0 _, h0 _, h0 _, h0 _, h0 _, h0 _, h0 _, h0 _, h0 _, h0 _, h0 _, h0 _, h0 _, h0 _, h0 _, h0 _, h0 _,
    Nat.zero_le _⟩

/-- A busy engine has a command in `LASTCMD`, so its move is a micro-step (R124). -/
theorem CommandOk.engineStep_next {s : State} (h : CommandOk s) : ∃ t, engineStep s = .next t := by
  cases hb : s.status.busy with
  | false => exact ⟨s, engineStep_idle hb⟩
  | true =>
    obtain ⟨i, hd, -⟩ := h hb
    exact ⟨_, (engineStep_busy hb hd).trans (exec_eq_microStep i s)⟩

/-- Settles O53, by the next event: only the engine's move could fault. -/
theorem machineNeverStops : Obligations.MachineNeverStops := by
  intro s hinv
  have hcommand := hinv.dataOk.command
  unfold StepsOn step
  split
  case h_1 => exact hcommand.engineStep_next
  case h_2 rest _ => exact CommandOk.engineStep_next (s := { s with events := rest }) hcommand
  case h_5 rest _ =>
    unfold pollStep
    split
    · exact ⟨_, rfl⟩
    · exact CommandOk.engineStep_next (s := hostRead s statusIdx) hcommand
  all_goals exact ⟨_, rfl⟩

end Sys2Proof.Machine
end

section
/-! PROOF. What a step does (spec/00_scope.md R14, spec/40_command_lifecycle.md R121 to R124, spec/70_reset_and_hazards.md
R270): resets, the interrupt line, the engine's move and the poll, and what a busy block keeps. -/

namespace Sys2Proof.Machine

/-! ### A step by its event (R74) -/

section
variable {s : State} {rest : List Event}

theorem step_nil (h : s.events = []) : step s = engineStep s := by rw [step, h]

theorem step_engine (h : s.events = .engine :: rest) : step s = engineStep { s with events := rest } := by rw [step, h]

theorem step_wait (h : s.events = .wait :: rest) : step s = pollStep s rest := by rw [step, h]

theorem step_rst (h : s.events = .rst :: rest) : step s = .next (resetBlock { s with events := rest }) := by rw [step, h]

theorem step_ctrl_reset {v : Word} (h : s.events = .write ctrlIdx v :: rest) (hv : v.getLsbD 1 = true) :
    step s = .next (resetBlock { s with events := rest }) :=
  step_write h (memWrite_ctrl_reset hv)

end

/-! ### Resets (R226, R270) -/

/-- The two sources of a reset have one effect. -/
theorem step_reset {s : State} {rest : List Event} {v : Word}
    (h : s.events = .rst :: rest ∨ (s.events = .write 0x002 v :: rest ∧ v.getLsbD 1 = true)) :
    step s = .next (resetBlock { s with events := rest }) := by
  obtain h | ⟨h, hv⟩ := h
  · exact step_rst h
  · exact step_ctrl_reset h hv

/-- Settles O17: both sources give `resetBlock`, whose registers are those of R43. -/
theorem resetLeaves : Obligations.ResetLeaves := by
  intro s rest v h
  exact ⟨_, step_reset h, rfl, rfl, rfl, rfl, rfl, rfl, rfl, rfl, rfl, rfl, rfl, rfl, rfl, rfl, rfl⟩

/-- Only index `0x000` is `ID`. -/
theorem portMap_eq_id {nw : Nat} {idx : PortIdx} (h : portMap nw idx = .id) : idx = 0x000 := by
  unfold portMap window at h
  apply BitVec.eq_of_toNat_eq
  show idx.toNat = 0
  grind (splits := 20)

/-- Only index `0x001` is `PARAM`. -/
theorem portMap_eq_param {nw : Nat} {idx : PortIdx} (h : portMap nw idx = .param) : idx = 0x001 := by
  unfold portMap window at h
  apply BitVec.eq_of_toNat_eq
  show idx.toNat = 1
  grind (splits := 20)

theorem getWord_zero (t : Nat) : getWord 0 t = 0 := by simp [getWord]

/-- After a reset only `ID` and `PARAM` do not read 0, by the port map. -/
theorem memRead_resetBlock (s : State) {idx : PortIdx} (hid : idx ≠ 0x000) (hparam : idx ≠ 0x001) :
    memRead (resetBlock s) idx = 0 := by
  cases hmap : portMap (resetBlock s).nw idx <;> simp only [memRead, hmap]
  case id => exact absurd (portMap_eq_id hmap) hid
  case param => exact absurd (portMap_eq_param hmap) hparam
  case aWord t => exact getWord_zero t
  case eWord t => exact getWord_zero t
  case mWord t => exact getWord_zero t
  case rWord t => exact getWord_zero t
  all_goals rfl

/-- Settles O18: whichever source resets the block, every other register is 0 (R43). -/
theorem resetClearsThePort : Obligations.ResetClearsThePort := by
  intro s t hreset hstep idx hid hparam
  have hnext : ∃ rest, step s = .next (resetBlock { s with events := rest }) := by
    obtain ⟨rest, h⟩ | ⟨v, rest, h, hv⟩ := hreset
    · exact ⟨rest, step_rst h⟩
    · exact ⟨rest, step_ctrl_reset h hv⟩
  obtain ⟨rest, h⟩ := hnext
  obtain rfl : resetBlock { s with events := rest } = t := by injection h.symm.trans hstep
  exact memRead_resetBlock _ hid hparam

/-! ### The interrupt line (R41, R246) -/

/-- A micro-step that ends the command sets `DONE`. -/
theorem MicroEffect.done_of_commit {s t : State} (h : MicroEffect s t) (hb : s.status.busy = true)
    (hend : t.status.busy = false) : t.status.done = true := by
  cases h.ending with
  | runs hstatus => simp [hstatus, hb] at hend
  | result _ hstatus => simp [hstatus]
  | verdict _ _ _ _ hstatus => simp [hstatus]
  | error _ _ _ _ _ _ hstatus => simp [hstatus]

/-- Settles O19: a commit sets `DONE` and keeps `IE`, and each of the four events clears one of them (R246). -/
theorem interruptLine : Obligations.InterruptLine := by
  refine ⟨fun s => by simp [State.irq], fun i s t hb hexec hend => ?commit, fun s v rest hev => ?falls⟩
  case commit =>
    obtain rfl := exec_next_iff.1 hexec
    have heffect := microStep_effect i s
    rw [State.irq, heffect.done_of_commit hb hend, heffect.frame.ie, Bool.and_true]
  case falls =>
    obtain ⟨hev, hv⟩ | ⟨hev, hidle, hlegal⟩ | ⟨hev, hv⟩ | hev := hev
    · exact ⟨_, step_write hev (memWrite_status _ v), by simp [State.irq, hv]⟩
    · obtain ⟨-, haccepted, -⟩ := acceptanceOfCommand s v rest hev
      exact ⟨_, haccepted hidle hlegal, by simp [State.irq, Status.running]⟩
    · cases hbit : v.getLsbD 1 with
      | true => exact ⟨_, step_ctrl_reset hev hbit, rfl⟩
      | false =>
        have hie : v.getLsbD 0 = false := hv.resolve_right (ne_true_of_eq_false hbit)
        exact ⟨_, step_write hev (memWrite_ctrl_no_reset hbit), by rw [State.irq, hie, Bool.false_and]⟩
    · exact ⟨_, step_rst hev, rfl⟩

/-! ### The engine's move and the poll (R121, R228) -/

/-- Settles O20, by the event: the engine's own, none, or a poll of the host. -/
theorem stepRunsDecodedCommand : Obligations.StepRunsDecodedCommand := by
  intro s rest
  refine ⟨fun i hb hd => ⟨fun h => ?none, fun h => ?engine, fun h hdone => ?waits⟩, fun h hdone => ?done,
    fun h hidle hdone => ?idle⟩
  case none => rw [step_nil h, engineStep_busy hb hd]
  case engine => exact (step_engine h).trans (engineStep_busy hb hd)
  case waits => exact (step_wait h).trans ((pollStep_waits hdone).trans (engineStep_busy hb hd))
  case done => exact (step_wait h).trans (pollStep_done hdone)
  case idle => exact (step_wait h).trans ((pollStep_waits hdone).trans (engineStep_idle hidle))

theorem tableWord_32 (w : Nat) : tableWord 32 w = some (BitVec.ofNat 32 w) := by
  rw [tableWord, if_pos (Nat.mod_lt _ (by decide))]
  exact congrArg some (BitVec.eq_of_toNat_eq (by simp))

/-- Settles O21: the word decoded is the word placed, and the engine is to move (log 12). -/
theorem placedWordRunsNext : Obligations.PlacedWordRunsNext := by
  intro s w i hdecode
  have hplaced : s.withFetchWord 32 w = startWord s (BitVec.ofNat 32 w) := by rw [State.withFetchWord, tableWord_32]
  have hd : decode (BitVec.ofNat 32 w) = .ok i := by
    rw [decodeTableWord, tableWord_32] at hdecode
    dsimp only at hdecode
    split at hdecode
    next j hj => rw [hj, Option.some.inj hdecode]
    next => cases hdecode
  rw [hplaced]
  exact (step_engine rfl).trans (engineStep_busy rfl hd)

/-- Settles O22: the engine's move of an idle block is no step (R121). -/
theorem idleEngineRests : Obligations.IdleEngineRests := by
  intro s rest hidle
  exact ⟨fun h => (step_nil h).trans (engineStep_idle hidle), fun h => (step_engine h).trans (engineStep_idle hidle)⟩

/-! ### What starts the engine, and what a busy block keeps (R66, R122) -/

section
variable {s t : State}

/-- An idle block is busy after a write only if the write was a legal word to `CMD`. -/
theorem memWrite_starts {idx : PortIdx} {v : Word} (hidle : s.status.busy = false)
    (hbusy : (memWrite s idx v).status.busy = true) :
    idx = cmdIdx ∧ legal v = true ∧ (memWrite s idx v).lastcmd = v ∧ (memWrite s idx v).phase = .start := by
  cases memWrite_effect s idx v with
  | ignored he => simp [he, hidle] at hbusy
  | busy hb => simp [hidle] at hb
  | ctrl _ he =>
    rw [he, writeCtrl] at hbusy
    split at hbusy
    · simp [Status.reset] at hbusy
    · simp [hidle] at hbusy
  | status _ he => simp [he, hidle] at hbusy
  | cmd hidx _ he =>
    cases hlegal : legal v with
    | true => rw [he, acceptCmd_legal s hlegal]; exact ⟨hidx, rfl, rfl, rfl⟩
    | false => simp [he, acceptCmd_illegal s hlegal] at hbusy
  | operand X _ x he => simp [he, hidle] at hbusy

theorem engineStep_rests (hidle : s.status.busy = false) (hstep : engineStep s = .next t) : t = s := by
  rw [engineStep_idle hidle] at hstep
  injection hstep.symm

/-- Settles O23: of all events only a write can start an idle engine (R122). -/
theorem onlyAcceptanceStartsTheEngine : Obligations.OnlyAcceptanceStartsTheEngine := by
  intro s t hidle hstep hbusy
  obtain ⟨-, he⟩ | ⟨rest, -, he⟩ | ⟨idx, rest, -, rfl⟩ | ⟨idx, v, rest, hev, rfl⟩ |
    ⟨rest, -, -, rfl⟩ | ⟨rest, -, -, he⟩ | ⟨rest, -, rfl⟩ := step_cases hstep
  · simp [engineStep_rests hidle he, hidle] at hbusy
  · simp [engineStep_rests (s := { s with events := rest }) hidle he, hidle] at hbusy
  · simp [hidle] at hbusy
  · obtain ⟨rfl, hlegal, hlast, hphase⟩ := memWrite_starts (s := { s with events := rest }) hidle hbusy
    exact ⟨v, rest, hev, hlegal, hlast, hphase⟩
  · simp [hidle] at hbusy
  · simp [engineStep_rests (s := hostRead s statusIdx) hidle he, hidle] at hbusy
  · simp [Status.reset] at hbusy

/-- What a busy block keeps: its width, operands and command word, and its results while it stays busy. -/
structure Kept (s t : State) : Prop where
  nw      : t.nw = s.nw
  A       : t.A = s.A
  E       : t.E = s.E
  M       : t.M = s.M
  lastcmd : t.lastcmd = s.lastcmd
  results : t.status.busy = true → t.R = s.R ∧ t.S = s.S

theorem MicroEffect.kept (h : MicroEffect s t) : Kept s t := by
  refine ⟨h.frame.nw, h.frame.A, h.frame.E, h.frame.M, h.frame.lastcmd, fun hb => ?_⟩
  cases h.ending with
  | runs _ hR hS => exact ⟨hR, hS⟩
  | result _ hstatus => simp [hstatus] at hb
  | verdict _ hR hS => exact ⟨hR, hS⟩
  | error _ hR hS => exact ⟨hR, hS⟩

theorem engineStep_kept (hstep : engineStep s = .next t) : Kept s t := by
  obtain ⟨-, rfl⟩ | ⟨i, -, -, rfl⟩ := engineStep_cases hstep
  · exact ⟨rfl, rfl, rfl, rfl, rfl, fun _ => ⟨rfl, rfl⟩⟩
  · exact (microStep_effect i s).kept

theorem memWrite_kept {idx : PortIdx} {v : Word} (hb : s.status.busy = true)
    (hreset : ¬ (idx = ctrlIdx ∧ v.getLsbD 1 = true)) : Kept s (memWrite s idx v) := by
  obtain he | he | ⟨hidx, he⟩ | he := memWrite_busy hb idx v <;> rw [he]
  case inr.inr.inl =>
    rw [writeCtrl, if_neg fun hv => hreset ⟨hidx, hv⟩]
    exact ⟨rfl, rfl, rfl, rfl, rfl, fun _ => ⟨rfl, rfl⟩⟩
  all_goals exact ⟨rfl, rfl, rfl, rfl, rfl, fun _ => ⟨rfl, rfl⟩⟩

theorem step_kept (hb : s.status.busy = true) (hreset : ¬ resetsNext s) (hstep : step s = .next t) : Kept s t := by
  have hrefl (rest : List Event) (x : Word) : Kept s { s with events := rest, rdata := x } :=
    ⟨rfl, rfl, rfl, rfl, rfl, fun _ => ⟨rfl, rfl⟩⟩
  obtain ⟨-, he⟩ | ⟨rest, -, he⟩ | ⟨idx, rest, -, rfl⟩ | ⟨idx, v, rest, hev, rfl⟩ |
    ⟨rest, -, -, rfl⟩ | ⟨rest, -, -, he⟩ | ⟨rest, hev, -⟩ := step_cases hstep
  · exact engineStep_kept he
  · exact { engineStep_kept he with }
  · exact hrefl _ _
  · refine { memWrite_kept (s := { s with events := rest }) hb ?_ with }
    rintro ⟨rfl, hv⟩
    exact hreset (.inr ⟨v, rest, hev, hv⟩)
  · exact hrefl _ _
  · exact { engineStep_kept he with }
  · exact absurd (.inl ⟨rest, hev⟩) hreset

/-- Settles O24: host writes are dropped or act on `CTRL` and `STATUS`, and the engine writes results only in a commit
(R26, R68). -/
theorem busyStepKeepsOperands : Obligations.BusyStepKeepsOperands := by
  intro s t hb hreset hstep
  obtain ⟨hnw, hA, hE, hM, hlast, hresults⟩ := step_kept hb hreset hstep
  exact ⟨hnw, hA, hE, hM, hlast, hresults⟩

end

end Sys2Proof.Machine
end

section
/-! PROOF. The micro-steps of all commands together: the seed (spec/43_miller_rabin.md R186, R187), the transition graph
(spec/40_command_lifecycle.md R122), the frame of a micro-step and which result a command may write (spec/10_state.md R24, R25,
R33). -/

namespace Sys2Proof.Machine

/-! ### `MR_SEED` (R186, R187) -/

section
variable {s : State} {f : CmdFields} {p : RngPins} {rest : List RngPins}

theorem exec_mrSeed (i : Instr) (hph : s.phase = .mrSeed) : exec i s = .next (mrSeed (cmdFields i) s) := by
  rw [exec_eq_microStep, microStep, hph]

theorem mrSeed_fail (hrng : s.rng = p :: rest) (hfail : p.fail = true) :
    mrSeed f s = completeErr .sourceUnavailable { s with rng := rest } := by
  simp only [mrSeed, hrng, hfail, if_true]

theorem mrSeed_word (hrng : s.rng = p :: rest) (hfail : p.fail = false) (hvalid : p.valid = true) :
    mrSeed f s = { s with
      rng := rest, work := { s.work with w := zextW p.word, i := f.acc }, rngReq := false, phase := .mrRound } := by
  simp only [mrSeed, hrng, hfail, hvalid, if_true, Bool.false_eq_true, if_false]

theorem mrSeed_silent (hrng : s.rng = p :: rest) (hp : p.silent) : mrSeed f s = { s with rng := rest } := by
  obtain ⟨hvalid, hfail⟩ := hp
  simp only [mrSeed, hrng, hfail, hvalid, Bool.false_eq_true, if_false]

theorem mrSeed_empty (hrng : s.rng = []) : mrSeed f s = s := by simp only [mrSeed, hrng]

end

/-- Settles O32: the four cases of `mrSeed`; the commands differ in the accuracy alone. -/
theorem seedMicroStep : Obligations.SeedMicroStep := by
  intro s acc p rest hph i hi
  have hacc : (cmdFields i).acc = acc := by fin_cases hi <;> rfl
  rw [exec_mrSeed i hph]
  refine ⟨fun hrng hfail => ?fail, fun hrng hfail hvalid => ?word, fun hrng hp => ?silent, fun hrng => ?empty⟩
  case fail => exact congrArg _ (mrSeed_fail hrng hfail)
  case word => rw [mrSeed_word hrng hfail hvalid, hacc, zextW]
  case silent => rw [mrSeed_silent hrng hp]
  case empty => rw [mrSeed_empty hrng]

/-! ### The transition graph (R122) -/

section
variable {s : State} {i : Instr}

theorem startOf_phase (i : Instr) (hph : s.phase = .start) : (startOf i s).phase = graphNext i s := by
  cases i with
  | powmod => by_cases hM : s.M = 0 <;> simp [startOf, startPowmod, graphNext, hph, hM]
  | fac2 => by_cases hA : s.A = 0 <;> simp [startOf, startFac2, graphNext, hph, hA]
  | _ => simp [startOf, startFilter, startTest, graphNext, hph]

theorem pmLoop_phase (hph : s.phase = .pmLoop) : (pmLoop s).phase = graphNext i s := by
  by_cases he : s.work.e = 0
  · cases hret : s.ret <;> simp [pmLoop, graphNext, hph, he, hret]
  · simp [pmLoop, graphNext, hph, he]

theorem mode_eq (i : Instr) : (cmdFields i).mode = if i = .mrd then .det else .prob := by
  by_cases hi : i = .mrd
  · rw [if_pos hi, hi]; rfl
  · rw [if_neg hi, cmdFields_mode_of_ne_mrd hi]

theorem f2Loop_phase (hph : s.phase = .f2Loop) : (f2Loop (cmdFields i) s).phase = graphNext i s := by
  by_cases heven : s.work.fd % 2 = 0
  · simp [f2Loop, graphNext, hph, heven]
  · cases hret : s.ret with
    | cmd => simp [f2Loop, graphNext, hph, heven, hret]
    | mr => by_cases hi : i = .mrd <;> simp [f2Loop, graphNext, hph, heven, hret, mode_eq, hi]

theorem tdLoop_phase (hph : s.phase = .tdLoop) : (tdLoop (cmdFields i) s).phase = graphNext i s := by
  simp only [tdLoop, graphNext, hph, rejects_iff]
  split_ifs <;> rfl

theorem mrStart_phase (hph : s.phase = .mrStart) : (mrStart (cmdFields i) s).phase = graphNext i s := by
  have hlimit : (cmdFields i).mode.limit = if i = .mrd then 3 else 4 := by
    rw [mode_eq]
    split <;> rfl
  rw [mrStart, hlimit]
  simp only [graphNext, hph]
  by_cases hn : s.work.nn ≤ if i = .mrd then 3 else 4
  · rw [if_pos hn, if_pos hn, completeErr_phase]
  · rw [if_neg hn, if_neg hn]

theorem mrSeed_phase (hph : s.phase = .mrSeed) : (mrSeed (cmdFields i) s).phase = graphNext i s := by
  cases hrng : s.rng with
  | nil => simp [mrSeed, graphNext, hph, hrng]
  | cons p rest => cases hfail : p.fail <;> cases hvalid : p.valid <;> simp [mrSeed, graphNext, hph, hrng, hfail, hvalid]

theorem mrRound_phase (hph : s.phase = .mrRound) : (mrRound (cmdFields i) s).phase = graphNext i s := by
  by_cases hi : i = .mrd <;> simp only [mrRound, graphNext, hph, mode_eq, hi, if_true, if_false]
  · split <;> simp
  · split <;> simp

theorem mrCheckX_phase (hph : s.phase = .mrCheckX) : (mrCheckX (cmdFields i) s).phase = graphNext i s := by
  simp only [mrCheckX, graphNext, hph]
  split <;> simp

theorem mrSq_phase (hph : s.phase = .mrSq) : (mrSq (cmdFields i) s).phase = graphNext i s := by
  simp only [mrSq, graphNext, hph]
  split_ifs <;> simp

theorem microStep_phase (i : Instr) (s : State) : (microStep (startOf i) (cmdFields i) s).phase = graphNext i s := by
  unfold microStep
  cases hph : s.phase with
  | idle => simp [graphNext, hph]
  | start => exact startOf_phase i hph
  | pmLoop => exact pmLoop_phase hph
  | f2Loop => exact f2Loop_phase hph
  | tdLoop => exact tdLoop_phase hph
  | mrStart => exact mrStart_phase hph
  | mrSeed => exact mrSeed_phase hph
  | mrdBound => simp [mrdBound, graphNext, hph]
  | mrRound => exact mrRound_phase hph
  | mrCheckX => exact mrCheckX_phase hph
  | mrSq => exact mrSq_phase hph

end

/-- Settles O37: `exec` is the micro-step of the phase, whose next phase is the graph's edge. -/
theorem transitionGraph : Obligations.TransitionGraph :=
  fun i s => ⟨_, exec_eq_microStep i s, microStep_phase i s⟩

/-! ### The frame, and the results (R24, R25, R33, R130) -/

/-- Settles O38: the four endings of `microStep_effect`, from the `STATUS` of a running command. -/
theorem commandsArePrecise : Obligations.CommandsArePrecise := by
  intro i s t hrun hexec
  obtain rfl := exec_next_iff.1 hexec
  obtain ⟨⟨hnw, hA, hE, hM, hie, hlast, hrdata, hevents⟩, hending, -⟩ := microStep_effect i s
  refine ⟨hnw, hA, hE, hM, hie, hlast, hrdata, hevents, ?_⟩
  cases hending with
  | runs hstatus hR hS =>
    exact .inl ⟨hstatus, hR, hS, memRead_congr hnw hA hE hM hR hS hie hstatus hlast⟩
  | result hphase hstatus =>
    rw [hrun] at hstatus
    exact .inr (.inl ⟨hphase, hstatus⟩)
  | verdict hphase hR hS q hstatus =>
    rw [hrun] at hstatus
    exact .inr (.inr (.inl ⟨hphase, hR, hS, q, hstatus⟩))
  | error hphase hR hS hreq c hc hstatus =>
    rw [hrun] at hstatus
    exact .inr (.inr (.inr ⟨hphase, hR, hS, hreq, c, hc, hstatus⟩))

theorem op_eq_one_iff {i : Instr} : (cmdFields i).op = 0x01 ↔ i = .powmod := by cases i <;> simp [cmdFields]

theorem op_eq_two_iff {i : Instr} : (cmdFields i).op = 0x02 ↔ i = .fac2 := by cases i <;> simp [cmdFields]

section
variable {s t : State} {i : Instr}

/-- An exponentiation that ends the command is POWMOD's. -/
theorem PhaseOk.eq_powmod (h : PhaseOk (cmdFields i) s) (hph : s.phase = .pmLoop) (hret : s.ret = .cmd) : i = .powmod :=
  op_eq_one_iff.1 ((phaseOk_pmLoop_cmd hph hret).1 h).2

/-- A factorisation that ends the command is FAC2's. -/
theorem PhaseOk.eq_fac2 (h : PhaseOk (cmdFields i) s) (hph : s.phase = .f2Loop) (hret : s.ret = .cmd) : i = .fac2 :=
  op_eq_two_iff.1 ((phaseOk_f2Loop_cmd hph hret).1 h).2.1

/-- A verdict is given by a testing command. -/
theorem PhaseOk.op_test (h : PhaseOk (cmdFields i) s) (hph : s.phase ∈ [Phase.tdLoop, .mrRound, .mrSq]) :
    3 ≤ (cmdFields i).op := by
  simp only [List.mem_cons, List.not_mem_nil, or_false] at hph
  obtain hph | hph | hph := hph
  · have := ((phaseOk_tdLoop hph).1 h).1
    omega
  · obtain ⟨⟨⟨hop, -⟩, -⟩, -⟩ := (phaseOk_mrRound hph).1 h
    omega
  · obtain ⟨⟨⟨⟨hop, -⟩, -⟩, -⟩, -⟩ := (phaseOk_mrSq hph).1 h
    omega

/-- Settles O39: a result is written at the exit of a loop with `ret` `CMD`, which the clause of the phase gives to POWMOD or
FAC2, and a verdict only in the phases of the testing commands. -/
theorem resultRegistersOfEachCommand : Obligations.ResultRegistersOfEachCommand := by
  intro i s t hinv hb hd hexec
  obtain rfl := exec_next_iff.1 hexec
  obtain ⟨-, hstatusOk, hidle_iff, -⟩ := inv_iff.1 hinv
  have hrun := hstatusOk.eq_running hb
  have hphase : s.phase ≠ .idle := fun hidle => by simp [hidle_iff.1 hidle] at hb
  have hp := hinv.phaseOk_of_decode hphase hd
  cases (microStep_effect i s).ending with
  | runs hstatus hR hS =>
    rw [hstatus, hrun]
    exact ⟨fun _ => hS, fun _ _ => hR, fun _ => ⟨rfl, rfl⟩⟩
  | result _ hstatus hret horigin =>
    rw [hstatus, hrun]
    obtain ⟨hph, hS⟩ | hph := horigin
    · exact ⟨fun _ => hS, fun _ hne => absurd (hp.eq_powmod hph hret) hne, fun _ => ⟨rfl, rfl⟩⟩
    · exact ⟨fun hne => absurd (hp.eq_fac2 hph hret) hne, fun hne => absurd (hp.eq_fac2 hph hret) hne,
        fun _ => ⟨rfl, rfl⟩⟩
  | verdict _ hR hS q _ horigin =>
    have hop := hp.op_test horigin
    refine ⟨fun _ => hS, fun _ _ => hR, ?_⟩
    rintro (rfl | rfl) <;> simp [cmdFields] at hop
  | error _ hR hS _ c _ hstatus =>
    rw [hstatus, hrun]
    exact ⟨fun _ => hS, fun _ _ => hR, fun _ => ⟨rfl, rfl⟩⟩

end

end Sys2Proof.Machine
end

section
/-! PROOF. POWMOD and FAC2 as runs of micro-steps (spec/41_modular_arithmetic.md R140, R144, R145, R149): the run of each loop,
which the witness loop shares, and the value of its result function. -/

namespace Sys2Proof.Machine

open Config

/-! ### Runs -/

/-- `s` in a phase of a command under way, with the sequencer's own registers. -/
def State.inRun (s : State) (p : Phase) (rt : Ret) (w : Work) : State := { s with phase := p, ret := rt, work := w }

section
variable (s : State) (p : Phase) (rt : Ret) (w : Work)

@[simp] theorem State.inRun_phase : (s.inRun p rt w).phase = p := rfl
@[simp] theorem State.inRun_ret : (s.inRun p rt w).ret = rt := rfl
@[simp] theorem State.inRun_work : (s.inRun p rt w).work = w := rfl

end

theorem execN_succ_of_exec {n : Nat} {i : Instr} {s t : State} (h : exec i s = .next t) :
    execN (n + 1) i s = execN n i t := by
  rw [execN, h]

theorem execN_one {i : Instr} {s t : State} (h : exec i s = .next t) : execN 1 i s = .next t := execN_succ_of_exec h

/-- Runs compose to a given end. -/
theorem execN_trans {m n : Nat} {i : Instr} {s t u : State} (h : execN m i s = .next t) (h' : execN n i t = .next u) :
    execN (m + n) i s = .next u :=
  (execN_add h).trans h'

/-! ### The `STATUS` of a command's ends -/

section
variable {u : Status}

theorem Status.finished_of_running (h : u = Status.running u.wign) : u.finished = Status.ofResult u.wign := by rw [h]; rfl

theorem Status.judged_of_running (h : u = Status.running u.wign) (q : Bool) : u.judged q = Status.ofVerdict u.wign q := by
  rw [h]; rfl

theorem Status.failed_of_running (h : u = Status.running u.wign) (c : ErrCode) : u.failed c = Status.ofError u.wign c := by
  rw [h]; rfl

end

/-- An error of a running command, with `rng_req` at 0 already. -/
theorem completeErr_of_running {s : State} (hrun : s.status = Status.running s.status.wign) (hreq : s.rngReq = false)
    (c : ErrCode) :
    completeErr c s = { s with status := Status.ofError s.status.wign c, phase := .idle } := by
  rw [completeErr, Status.failed_of_running hrun, ← hreq]

/-! ### The length of an exponent (R11) -/

theorem bitlen_zero : bitlen 0 = 0 := rfl

theorem bitlen_of_ne_zero {e : Nat} (he : e ≠ 0) : bitlen e = bitlen (e / 2) + 1 := by
  rw [bitlen, if_neg he, bitlen]
  obtain rfl | h2 : e = 1 ∨ 2 ≤ e := by omega
  · rfl
  · rw [if_neg (by omega), Nat.log2_def, if_pos h2]

theorem bitlen_le_iff {v n : Nat} : bitlen v ≤ n ↔ v < 2 ^ n := by
  by_cases hv : v = 0
  · simp [hv, bitlen_zero]
  · rw [bitlen, if_neg hv, Nat.add_one_le_iff, Nat.log2_lt hv]

/-! ### Square and multiply (R140, R142) -/

/-- One pass keeps `r * b ^ e` modulo `m`. -/
theorem pass_modEq (r b e m : Nat) :
    (if e % 2 = 1 then r * b % m else r) * (b * b % m) ^ (e / 2) ≡ r * b ^ e [MOD m] := by
  have hsq : (b * b % m) ^ (e / 2) ≡ b ^ (2 * (e / 2)) [MOD m] := by
    rw [pow_mul, pow_two]
    exact (Nat.mod_modEq _ _).pow _
  obtain hodd | heven := (Nat.mod_two_eq_zero_or_one e).symm
  · rw [if_pos hodd]
    calc r * b % m * (b * b % m) ^ (e / 2) ≡ r * b * b ^ (2 * (e / 2)) [MOD m] := (Nat.mod_modEq _ _).mul hsq
      _ = r * b ^ (2 * (e / 2) + 1) := by ring
      _ = r * b ^ e := by rw [← hodd, Nat.div_add_mod]
  · rw [if_neg (by omega)]
    calc r * (b * b % m) ^ (e / 2) ≡ r * b ^ (2 * (e / 2)) [MOD m] := hsq.mul_left r
      _ = r * b ^ e := by rw [Nat.mul_div_cancel' (Nat.dvd_of_mod_eq_zero heven)]

/-- The loop of R140 multiplies `r` by the power, reduced if there is a pass at all. -/
theorem powmodFrom_eq (n r b : Nat) {e : Nat} (m : Nat) (he : e ≠ 0) (hn : bitlen e ≤ n) :
    powmodFrom n r b e m = r * b ^ e % m := by
  induction n generalizing r b e with
  | zero => rw [bitlen_of_ne_zero he] at hn; omega
  | succ n ih =>
    rw [powmodFrom, if_neg he, ← (pass_modEq r b e m : _ % m = _ % m)]
    by_cases hhalf : e / 2 = 0
    · obtain rfl : e = 1 := by omega
      cases n <;> simp [powmodFrom]
    · rw [bitlen_of_ne_zero he] at hn
      exact ih _ _ hhalf (by omega)

/-- `powmod_f` is the power reduced, but for the exponent 0 (R140). -/
theorem powmodF_eq (b e m : Nat) : powmodF b e m = if e = 0 then 1 else b ^ e % m := by
  split
  next he => rw [he]; rfl
  next he => rw [powmodF, powmodFrom_eq _ _ _ _ he le_rfl, one_mul]

/-- The run of `PM_LOOP` to its exit, `bitlen(e)` passes whatever command runs (R144). -/
theorem execN_pmLoop (i : Instr) (s : State) (rt : Ret) (w : Work) :
    ∃ b, execN (bitlen w.e) i (s.inRun .pmLoop rt w) =
      .next (s.inRun .pmLoop rt { w with r := powmodFrom (bitlen w.e) w.r w.b w.e w.m, b := b, e := 0 }) := by
  obtain ⟨n, hn⟩ : ∃ n, bitlen w.e = n := ⟨_, rfl⟩
  rw [hn]
  induction n generalizing w with
  | zero =>
    have he : w.e = 0 := by by_contra he; rw [bitlen_of_ne_zero he] at hn; omega
    refine ⟨w.b, ?_⟩
    show Host.Outcome.next _ = .next (s.inRun .pmLoop rt { w with e := 0 })
    rw [← he]
  | succ n ih =>
    have he : w.e ≠ 0 := by intro he; rw [he, bitlen_zero] at hn; omega
    rw [bitlen_of_ne_zero he] at hn
    obtain ⟨b, hb⟩ := ih (pmPass w) (Nat.succ.inj hn)
    refine ⟨b, ?_⟩
    have hpass : exec i (s.inRun .pmLoop rt w) = .next (s.inRun .pmLoop rt (pmPass w)) := by
      rw [exec_pmLoop i rfl, pmLoop_pass rfl he]
      rfl
    rw [execN_succ_of_exec hpass, hb, powmodFrom, if_neg he]
    rfl

theorem execN_pmLoop_commit (i : Instr) (s : State) (w : Work) (he : w.e = 0) :
    execN 1 i (s.inRun .pmLoop .cmd w) = .next (completeOk (.big w.r) (s.inRun .pmLoop .cmd w)) :=
  execN_one ((exec_pmLoop i rfl).trans (congrArg _ (pmLoop_exit_cmd he rfl)))

/-- Settles O40: START, `bitlen(E)` passes and the exit, and the value by `powmodF_eq` (R140, R144). -/
theorem powmodComputes : Obligations.PowmodComputes := by
  intro s ⟨hph, hrun, hreq⟩
  obtain ⟨hzero, hnonzero⟩ := powmodStart s hph
  refine ⟨fun hM => ⟨s.work, s.ret, ?_⟩, fun hM => ?_⟩
  · exact (execN_one (hzero hM)).trans (congrArg _ (completeErr_of_running hrun hreq _))
  · obtain ⟨w, hw⟩ : ∃ w : Work, w = { s.work with r := 1, b := s.A, e := s.E, m := s.M } := ⟨_, rfl⟩
    have hstart : execN 1 .powmod s = .next (s.inRun .pmLoop .cmd w) := by rw [execN_one (hnonzero hM), hw]; rfl
    obtain ⟨b, hloop⟩ := execN_pmLoop .powmod s .cmd w
    have hvalue : powmodFrom (bitlen w.e) w.r w.b w.e w.m = if s.E = 0 then 1 else s.A ^ s.E % s.M := by
      rw [← powmodF_eq, hw]; rfl
    rw [hvalue] at hloop
    have he : w.e = s.E := by rw [hw]
    rw [show bitlen s.E + 2 = 1 + (bitlen w.e + 1) by rw [he]; omega,
      execN_trans hstart (execN_trans hloop (execN_pmLoop_commit _ _ _ rfl))]
    exact ⟨_, _, by rw [← Status.finished_of_running hrun]; rfl⟩

/-! ### Factorisation (R145, R147) -/

/-- The run of `F2_LOOP` to its exit, one shift for each factor 2 (R149). -/
theorem execN_f2Loop (i : Instr) (s : State) (rt : Ret) (d n : Nat) (w : Work) (hfd : w.fd = 2 ^ n * d) :
    execN n i (s.inRun .f2Loop rt w) = .next (s.inRun .f2Loop rt { w with fd := d, fs := w.fs + n }) := by
  induction n generalizing w with
  | zero =>
    have hd : w.fd = d := by rw [hfd, pow_zero, one_mul]
    rw [← hd]
    rfl
  | succ n ih =>
    have htwo : w.fd = 2 * (2 ^ n * d) := by rw [hfd]; ring
    have hshift : exec i (s.inRun .f2Loop rt w) =
        .next (s.inRun .f2Loop rt { w with fd := w.fd / 2, fs := w.fs + 1 }) := by
      rw [exec_f2Loop i rfl, f2Loop_shift rfl (show w.fd % 2 = 0 by omega)]
      rfl
    rw [execN_succ_of_exec hshift, ih _ (show w.fd / 2 = 2 ^ n * d by omega), Nat.add_assoc, Nat.add_comm 1]

theorem execN_f2Loop_commit (i : Instr) (s : State) (w : Work) (hodd : w.fd % 2 = 1) :
    execN 1 i (s.inRun .f2Loop .cmd w) = .next (completeOk (.factors w.fs w.fd) (s.inRun .f2Loop .cmd w)) :=
  execN_one ((exec_f2Loop i rfl).trans (congrArg _ (f2Loop_exit_cmd hodd rfl)))

/-- `fac2_f` of an odd number times a power of two (R145). -/
theorem fac2From_eq {d : Nat} (hd : d % 2 = 1) (k s n : Nat) (hn : k < n) : fac2From n (2 ^ k * d) s = (s + k, d) := by
  induction k generalizing s n with
  | zero =>
    obtain ⟨n, rfl⟩ := Nat.exists_eq_succ_of_ne_zero hn.ne'
    rw [fac2From, pow_zero, one_mul, if_neg (by omega), Nat.add_zero]
  | succ k ih =>
    obtain ⟨n, rfl⟩ := Nat.exists_eq_succ_of_ne_zero (Nat.ne_zero_of_lt hn)
    have htwo : 2 ^ (k + 1) * d = 2 * (2 ^ k * d) := by ring
    rw [fac2From, htwo, if_pos (Nat.mul_mod_right _ _), Nat.mul_div_cancel_left _ two_pos, ih _ _ (by omega)]
    exact Prod.ext (by omega) rfl

theorem fac2F_eq {d : Nat} (hd : d % 2 = 1) (k : Nat) : fac2F (2 ^ k * d) = (k, d) := by
  have hk : k < bitlen (2 ^ k * d) := by
    rw [← Nat.not_le, bitlen_le_iff, Nat.not_lt]
    exact Nat.le_mul_of_pos_right _ (by omega)
  rw [fac2F, fac2From_eq hd k 0 _ hk, Nat.zero_add]

/-- Settles O41: START, one shift for each factor 2 and the exit; the count is below `W`, so `S` holds it (R145, R149). -/
theorem factorisationComputes : Obligations.FactorisationComputes := by
  intro s ⟨hph, hrun, hreq⟩ hwidth hlt
  obtain ⟨hzero, hnonzero⟩ := factorisationStart s hph
  refine ⟨fun hA => ⟨s.work, s.ret, ?_⟩, fun hA => ?_⟩
  · exact (execN_one (hzero hA)).trans (congrArg _ (completeErr_of_running hrun hreq _))
  · obtain ⟨n, d, hodd, hfac⟩ := Nat.exists_eq_two_pow_mul_odd hA
    have hd := Nat.odd_iff.1 hodd
    have hn : n < 2 ^ 32 := hwidth.count_lt (shifts_lt_width hodd.pos.ne' ((mul_comm _ _).trans hfac.symm) hlt)
    have htwo : (BitVec.ofNat 32 n).toNat = n := (BitVec.toNat_ofNat _ _).trans (Nat.mod_eq_of_lt hn)
    have hstart : execN 1 .fac2 s = .next (s.inRun .f2Loop .cmd { s.work with fd := s.A, fs := 0 }) :=
      execN_one (hnonzero hA)
    have hloop := execN_f2Loop .fac2 s .cmd d n { s.work with fd := s.A, fs := 0 } hfac
    have hcommit := execN_f2Loop_commit .fac2 s { s.work with fd := d, fs := 0 + n } hd
    have hwhole := execN_trans hstart (execN_trans hloop hcommit)
    refine ⟨d, BitVec.ofNat 32 n, { s.work with fd := d, fs := 0 + n }, .cmd, by rw [htwo, hfac], hd, ?_⟩
    rw [htwo, show n + 2 = 1 + (n + 1) by omega, hwhole, ← Status.finished_of_running hrun, Nat.zero_add]
    rfl

end Sys2Proof.Machine
end

section
/-! PROOF. The filter as a run of micro-steps (spec/42_trial_division.md R161 to R163): the scan of the prime ROM, which TDIV and
CHECK share, and what it decides. -/

namespace Sys2Proof.Machine

/-! ### What `tdiv_f` decides (R163) -/

theorem tdivF_eq_true_iff {n klim : Nat} : tdivF n klim = true ↔ ∀ k < klim, ¬ rejects (prime k) n = true := by
  simp [tdivF]

theorem tdivF_eq_false_iff {n klim : Nat} : tdivF n klim = false ↔ ∃ k < klim, rejects (prime k) n = true := by
  simp [tdivF]

/-- The first `c + 1` entries are the primes up to entry `c` (R160). -/
theorem exists_entry_iff {c : Nat} (hc : c < 1000) (P : Nat → Prop) :
    (∃ k < c + 1, P (prime k)) ↔ ∃ x : Nat, x.Prime ∧ x ≤ prime c ∧ P x := by
  have hinf := Nat.infinite_setOfPred_prime
  constructor
  · rintro ⟨k, hk, hP⟩
    have hprime := prime_eq_nth (k := k) (by omega)
    refine ⟨prime k, ?_, ?_, hP⟩
    · rw [hprime]
      exact Nat.prime_nth_prime k
    · rw [hprime, prime_eq_nth hc, Nat.nth_le_nth hinf]
      omega
  · rintro ⟨x, hx, hle, hP⟩
    have hnth := Nat.nth_count hx
    have hk : Nat.count Nat.Prime x < c + 1 := by
      rw [prime_eq_nth hc, ← hnth, Nat.nth_le_nth hinf] at hle
      omega
    exact ⟨_, hk, by rwa [prime_eq_nth (by omega), hnth]⟩

/-- The filter rejects the proper multiples of the primes of its table (R163). -/
theorem tdivF_eq_false_iff_prime {n c : Nat} (hc : c < 1000) :
    tdivF n (c + 1) = false ↔ ∃ x : Nat, x.Prime ∧ x ≤ prime c ∧ x ∣ n ∧ n ≠ x := by
  simp only [tdivF_eq_false_iff, rejects_iff, exists_entry_iff hc fun x => n % x = 0 ∧ n ≠ x, Nat.dvd_iff_mod_eq_zero]

/-! ### The scan (R161, R162) -/

section
variable {s : State} {i : Instr} {w : Work}

/-- `c` entries that do not reject are `c` micro-steps. -/
theorem execN_tdLoop_advance (i : Instr) (s : State) (rt : Ret) (c : Nat) (w : Work) (hk : w.k + c ≤ (cmdFields i).klim)
    (hpass : ∀ j < c, ¬ rejects (prime (w.k + j)) w.nn = true) :
    execN c i (s.inRun .tdLoop rt w) = .next (s.inRun .tdLoop rt { w with k := w.k + c }) := by
  induction c generalizing w with
  | zero => rfl
  | succ c ih =>
    have hadvance : exec i (s.inRun .tdLoop rt w) = .next (s.inRun .tdLoop rt { w with k := w.k + 1 }) := by
      have hne : w.k ≠ (cmdFields i).klim := by omega
      have hhere := mt rejects_iff.2 (hpass 0 (Nat.succ_pos c))
      rw [exec_tdLoop i rfl, tdLoop_advance rfl hne hhere]
      rfl
    rw [execN_succ_of_exec hadvance, ih]
    · rw [Nat.add_assoc, Nat.add_comm 1]
    · show w.k + 1 + c ≤ _
      omega
    · intro j hj
      rw [Nat.add_assoc, Nat.add_comm 1]
      exact hpass (j + 1) (by omega)

/-- The registers of a filter after its START action (R161). -/
def filterStart (s : State) : Work := { s.work with nn := s.A, k := 0 }

theorem exec_startFilter (hph : s.phase = .start) (hi : startOf i = startFilter) :
    exec i s = .next (s.inRun .tdLoop s.ret (filterStart s)) := by
  rw [exec_start i hph, hi]
  rfl

/-- An accepted operand has passed every entry. -/
theorem execN_filter_accepts (hph : s.phase = .start) (hi : startOf i = startFilter)
    (hF : tdivF s.A (cmdFields i).klim = true) :
    execN (1 + (cmdFields i).klim) i s =
      .next (s.inRun .tdLoop s.ret { s.work with nn := s.A, k := (cmdFields i).klim }) := by
  have hpass : ∀ j < (cmdFields i).klim, ¬ rejects (prime (0 + j)) s.A = true := by
    simpa only [Nat.zero_add] using tdivF_eq_true_iff.1 hF
  have hscan := execN_tdLoop_advance i s s.ret _ (filterStart s) (Nat.zero_add _).le hpass
  rw [execN_trans (execN_one (exec_startFilter hph hi)) hscan, Nat.add_comm (filterStart s).k]
  rfl

/-- A rejected operand is rejected by the first entry that does so. -/
theorem execN_filter_rejects (hph : s.phase = .start) (hi : startOf i = startFilter)
    (hF : tdivF s.A (cmdFields i).klim = false) :
    ∃ n w, n ≤ (cmdFields i).klim + 1 ∧ execN n i s = .next (completeOk (.verdict false) (s.inRun .tdLoop s.ret w)) := by
  have hex := tdivF_eq_false_iff.1 hF
  classical
  obtain ⟨hk, hrej⟩ := Nat.find_spec hex
  have hfirst : ∀ j < Nat.find hex, ¬ rejects (prime (0 + j)) s.A = true := by
    intro j hj hrej'
    rw [Nat.zero_add] at hrej'
    exact Nat.find_min hex hj ⟨hj.trans hk, hrej'⟩
  have hscan := execN_tdLoop_advance i s s.ret (Nat.find hex) (filterStart s) ((Nat.zero_add _).trans_le hk.le) hfirst
  have hcommit : exec i (s.inRun .tdLoop s.ret { s.work with nn := s.A, k := 0 + Nat.find hex }) =
      .next (completeOk (.verdict false) (s.inRun .tdLoop s.ret { s.work with nn := s.A, k := 0 + Nat.find hex })) := by
    rw [Nat.zero_add, exec_tdLoop i rfl, tdLoop_reject hk.ne (rejects_iff.1 hrej)]
  exact ⟨1 + (Nat.find hex + 1), _, by omega,
    execN_trans (execN_one (exec_startFilter hph hi)) (execN_trans hscan (execN_one hcommit))⟩

end

/-- A verdict of a running command, whatever its phase was. -/
theorem verdict_of_running {s : State} (hrun : s.status = Status.running s.status.wign) (q : Bool) (p : Phase) (rt : Ret)
    (w : Work) : completeOk (.verdict q) (s.inRun p rt w) =
      { s with status := Status.ofVerdict s.status.wign q, phase := .idle, work := w, ret := rt } := by
  rw [← Status.judged_of_running hrun]
  rfl

/-- TDIV gives the verdict of `tdiv_f` (R163). -/
theorem execN_tdiv {s : State} {i : Instr} (hph : s.phase = .start) (hi : startOf i = startFilter)
    (hop : (cmdFields i).op = 0x03) :
    ∃ n w, n ≤ (cmdFields i).klim + 2 ∧
      execN n i s = .next (completeOk (.verdict (tdivF s.A (cmdFields i).klim)) (s.inRun .tdLoop s.ret w)) := by
  cases hF : tdivF s.A (cmdFields i).klim with
  | false =>
    obtain ⟨n, w, hn, hrun⟩ := execN_filter_rejects hph hi hF
    exact ⟨n, w, by omega, hrun⟩
  | true =>
    have hcommit : exec i (s.inRun .tdLoop s.ret { s.work with nn := s.A, k := (cmdFields i).klim }) = .next _ :=
      (exec_tdLoop i rfl).trans (congrArg _ (tdLoop_end_tdiv rfl hop))
    exact ⟨1 + (cmdFields i).klim + 1, _, by omega, execN_trans (execN_filter_accepts hph hi hF) (execN_one hcommit)⟩

/-- The whole of TDIV with a table that ends at entry `c`. -/
theorem tdiv_computes {s : State} {i : Instr} {c last : Nat} (hs : Started s) (hi : startOf i = startFilter)
    (hop : (cmdFields i).op = 0x03) (hc : c < 1000) (hklim : (cmdFields i).klim = c + 1) (hlast : prime c = last) :
    ∃ (n : Nat) (q : Bool) (wk : Work) (rt : Ret), n ≤ c + 1 + 2 ∧
      execN n i s = .next { s with
        status := Status.ofVerdict s.status.wign q, phase := .idle, work := wk, ret := rt } ∧
      (q = false ↔ ∃ x : Nat, x.Prime ∧ x ≤ last ∧ x ∣ s.A ∧ s.A ≠ x) := by
  obtain ⟨hph, hrun, -⟩ := hs
  obtain ⟨n, w, hn, hexec⟩ := execN_tdiv hph hi hop
  rw [hklim] at hn hexec
  rw [verdict_of_running hrun] at hexec
  exact ⟨n, tdivF s.A (c + 1), w, s.ret, hn, hexec, hlast ▸ tdivF_eq_false_iff_prime hc⟩

/-- Settles O42: the run of the scan, and the tables as the primes up to their last entries, 541 and 7919 (R160, R163). -/
theorem trialDivisionComputes : Obligations.TrialDivisionComputes := by
  obtain ⟨-, hlast100, hlast1000, -⟩ := primeTable
  intro s hs p hp
  fin_cases hp
  · exact tdiv_computes (c := 99) hs rfl rfl (by decide) rfl hlast100
  · exact tdiv_computes (c := 999) hs rfl rfl (by decide) rfl hlast1000

end Sys2Proof.Machine
end

section
/-! PROOF. The witness loop as a run of micro-steps (spec/43_miller_rabin.md R180 to R192): a round, the rounds of both modes, and
the way into them from `MR_START`. -/

namespace Sys2Proof.Machine

open Config

/-! ### A round (R184, R190 to R192) -/

/-- The registers of the witness loop that a round keeps. -/
structure SameLoop (u v : Work) : Prop where
  nn      : v.nn = u.nn
  d       : v.d = u.d
  s       : v.s = u.s
  witness : v.w = u.w
  rounds  : v.i = u.i
  bound   : v.wb = u.wb

theorem SameLoop.trans {t u v : Work} (h : SameLoop t u) (h' : SameLoop u v) : SameLoop t v :=
  ⟨h'.nn.trans h.nn, h'.d.trans h.d, h'.s.trans h.s, h'.witness.trans h.witness, h'.rounds.trans h.rounds,
    h'.bound.trans h.bound⟩

/-- The registers after a round passed: MRD goes on to the next witness (R191). -/
def nextWitness (f : CmdFields) (w : Work) : Work :=
  match f.mode with
  | .prob => w
  | .det => { w with w := w.w + 1 }

/-- The registers at the start of the exponentiation of a round (R189, R190). -/
def roundStart (w : Work) : Work := { w with r := 1, b := w.w, e := w.d, m := w.nn }

section
variable {s : State} {i : Instr} {f : CmdFields} {rt : Ret} {w : Work}

theorem roundPasses_inRun {p : Phase} {w₀ : Work} :
    roundPasses f w (s.inRun p rt w₀) = s.inRun .mrRound rt (nextWitness f w) := by
  cases hmode : f.mode with
  | prob => simp only [roundPasses_prob hmode, nextWitness, hmode]; rfl
  | det => simp only [roundPasses_det hmode, nextWitness, hmode]; rfl

/-- A squaring that does not end the round. -/
theorem exec_mrSq_again (hj : w.j ≠ 0) (hx : w.x * w.x % w.nn ≠ w.nn - 1) :
    exec i (s.inRun .mrSq .mr w) = .next (s.inRun .mrSq .mr { w with x := w.x * w.x % w.nn, j := w.j - 1 }) := by
  rw [exec_mrSq i rfl, mrSq_again rfl hj hx]
  rfl

/-- The squarings of a round that passes. -/
theorem execN_mrSq_passes (i : Instr) (s : State) (w : Work) (h : squaresToMinusOne w.j w.x w.nn = true) :
    ∃ n w', n ≤ w.j ∧ SameLoop w w' ∧
      execN n i (s.inRun .mrSq .mr w) = .next (s.inRun .mrRound .mr (nextWitness (cmdFields i) w')) := by
  obtain ⟨q, hq⟩ : ∃ q, w.j = q := ⟨_, rfl⟩
  induction q generalizing w with
  | zero => rw [hq, squaresToMinusOne] at h; cases h
  | succ q ih =>
    have hj : w.j ≠ 0 := by omega
    rw [hq, squaresToMinusOne] at h
    by_cases hx : w.x * w.x % w.nn = w.nn - 1
    · refine ⟨1, { w with x := w.x * w.x % w.nn, j := w.j - 1 }, by omega, ⟨rfl, rfl, rfl, rfl, rfl, rfl⟩, execN_one ?_⟩
      rw [exec_mrSq i rfl, mrSq_pass hj hx, roundPasses_inRun]
      rfl
    · have hq' : w.j - 1 = q := by omega
      rw [if_neg hx, ← hq'] at h
      obtain ⟨n, w', hn, hsame, hrun⟩ := ih { w with x := w.x * w.x % w.nn, j := w.j - 1 } h hq'
      have hn' : n ≤ w.j - 1 := hn
      exact ⟨n + 1, w', by omega, { hsame with }, (execN_succ_of_exec (exec_mrSq_again hj hx)).trans hrun⟩

/-- The squarings of a round that fails. -/
theorem execN_mrSq_fails (i : Instr) (s : State) (w : Work) (h : squaresToMinusOne w.j w.x w.nn = false) :
    ∃ w', execN (w.j + 1) i (s.inRun .mrSq .mr w) = .next (completeOk (.verdict false) (s.inRun .mrRound .mr w')) := by
  obtain ⟨q, hq⟩ : ∃ q, w.j = q := ⟨_, rfl⟩
  induction q generalizing w with
  | zero =>
    refine ⟨w, ?_⟩
    rw [hq, execN_one ((exec_mrSq i rfl).trans (congrArg _ (mrSq_fail hq)))]
    rfl
  | succ q ih =>
    have hj : w.j ≠ 0 := by omega
    have hq' : w.j - 1 = q := by omega
    rw [hq, squaresToMinusOne] at h
    by_cases hx : w.x * w.x % w.nn = w.nn - 1
    · simp [hx] at h
    · rw [if_neg hx, ← hq'] at h
      obtain ⟨w', hrun⟩ := ih { w with x := w.x * w.x % w.nn, j := w.j - 1 } h hq'
      refine ⟨w', ?_⟩
      rw [execN_succ_of_exec (exec_mrSq_again hj hx), ← hrun]
      simp only [hq, Nat.add_sub_cancel]

theorem exec_pmLoop_exit (he : w.e = 0) :
    exec i (s.inRun .pmLoop .mr w) = .next (s.inRun .mrCheckX .mr { w with x := w.r }) := by
  rw [exec_pmLoop i rfl, pmLoop_exit_mr he rfl]
  rfl

/-- The exponentiation of a round, to the first test. -/
theorem execN_power (i : Instr) (s : State) (w : Work) :
    ∃ w', w'.x = powmodF w.w w.d w.nn ∧ SameLoop w w' ∧
      execN (bitlen w.d + 1) i (s.inRun .pmLoop .mr (roundStart w)) = .next (s.inRun .mrCheckX .mr w') := by
  obtain ⟨b, hloop⟩ := execN_pmLoop i s .mr (roundStart w)
  refine ⟨_, ?_, ?_, execN_trans hloop (execN_one (exec_pmLoop_exit rfl))⟩
  · rfl
  · exact ⟨rfl, rfl, rfl, rfl, rfl, rfl⟩

theorem roundF_eq (n s d a : Nat) : roundF n s d a =
    (decide (powmodF a d n = 1 ∨ powmodF a d n = n - 1) || squaresToMinusOne (squarings s) (powmodF a d n) n) := by
  rw [roundF, Bool.decide_or]

theorem exec_mrCheckX_square (hx : ¬ (w.x = 1 ∨ w.x = w.nn - 1)) :
    exec i (s.inRun .mrCheckX .mr w) = .next (s.inRun .mrSq .mr { w with j := squarings w.s }) := by
  rw [exec_mrCheckX i rfl, mrCheckX_square hx]
  rfl

theorem execN_mrCheckX_passes (i : Instr) (s : State) (w : Work)
    (h : (decide (w.x = 1 ∨ w.x = w.nn - 1) || squaresToMinusOne (squarings w.s) w.x w.nn) = true) :
    ∃ n w', n ≤ squarings w.s + 1 ∧ SameLoop w w' ∧
      execN n i (s.inRun .mrCheckX .mr w) = .next (s.inRun .mrRound .mr (nextWitness (cmdFields i) w')) := by
  by_cases hx : w.x = 1 ∨ w.x = w.nn - 1
  · refine ⟨1, w, by omega, ⟨rfl, rfl, rfl, rfl, rfl, rfl⟩, execN_one ?_⟩
    rw [exec_mrCheckX i rfl, mrCheckX_pass hx, roundPasses_inRun]
    rfl
  · rw [decide_eq_false hx, Bool.false_or] at h
    obtain ⟨n, w', hn, hsame, hrun⟩ := execN_mrSq_passes i s { w with j := squarings w.s } h
    exact ⟨n + 1, w', Nat.succ_le_succ hn, { hsame with }, (execN_succ_of_exec (exec_mrCheckX_square hx)).trans hrun⟩

theorem execN_mrCheckX_fails (i : Instr) (s : State) (w : Work)
    (h : (decide (w.x = 1 ∨ w.x = w.nn - 1) || squaresToMinusOne (squarings w.s) w.x w.nn) = false) :
    ∃ w', execN (squarings w.s + 2) i (s.inRun .mrCheckX .mr w) =
      .next (completeOk (.verdict false) (s.inRun .mrRound .mr w')) := by
  obtain ⟨hx, hsq⟩ := Bool.or_eq_false_iff.1 h
  obtain ⟨w', hrun⟩ := execN_mrSq_fails i s { w with j := squarings w.s } hsq
  exact ⟨w', (execN_succ_of_exec (exec_mrCheckX_square (of_decide_eq_false hx))).trans hrun⟩

/-- A round that passes goes back to `MR_ROUND`. -/
theorem execN_round_passes (i : Instr) (s : State) (w : Work) (h : roundF w.nn w.s w.d w.w = true) :
    ∃ n w', n ≤ bitlen w.d + squarings w.s + 2 ∧ SameLoop w w' ∧
      execN n i (s.inRun .pmLoop .mr (roundStart w)) = .next (s.inRun .mrRound .mr (nextWitness (cmdFields i) w')) := by
  obtain ⟨u, hx, hsame, hpower⟩ := execN_power i s w
  rw [roundF_eq, ← hx, ← hsame.nn, ← hsame.s] at h
  obtain ⟨n, w', hn, hsame', hrun⟩ := execN_mrCheckX_passes i s u h
  rw [hsame.s] at hn
  exact ⟨bitlen w.d + 1 + n, w', by omega, hsame.trans hsame', execN_trans hpower hrun⟩

/-- A round that fails is the end of the command. -/
theorem execN_round_fails (i : Instr) (s : State) (w : Work) (h : roundF w.nn w.s w.d w.w = false) :
    ∃ n w', n ≤ bitlen w.d + squarings w.s + 3 ∧
      execN n i (s.inRun .pmLoop .mr (roundStart w)) = .next (completeOk (.verdict false) (s.inRun .mrRound .mr w')) := by
  obtain ⟨u, hx, hsame, hpower⟩ := execN_power i s w
  rw [roundF_eq, ← hx, ← hsame.nn, ← hsame.s] at h
  obtain ⟨w', hrun⟩ := execN_mrCheckX_fails i s u h
  rw [hsame.s] at hrun
  exact ⟨bitlen w.d + 1 + (squarings w.s + 2), w', by omega, execN_trans hpower hrun⟩

/-! ### The rounds of each mode (R180, R181, R189, R190) -/

/-- The rounds of the probabilistic test, `B` micro-steps each at most. -/
theorem execN_rounds_prob (hmode : (cmdFields i).mode = .prob) (s : State) (B : Nat) (w : Work)
    (hB : bitlen w.d + squarings w.s + 4 ≤ B) :
    ∃ n w', n ≤ w.i * B + 1 ∧ execN n i (s.inRun .mrRound .mr w) =
      .next (completeOk (.verdict (mrRounds w.nn w.s w.d w.i w.w)) (s.inRun .mrRound .mr w')) := by
  obtain ⟨c, hc⟩ : ∃ c, w.i = c := ⟨_, rfl⟩
  rw [hc]
  induction c generalizing w with
  | zero =>
    exact ⟨1, w, by omega, execN_one ((exec_mrRound i rfl).trans (congrArg _ (mrRound_prob_end hmode hc)))⟩
  | succ c ih =>
    obtain ⟨u, hu⟩ : ∃ u : Work, u = { w with i := c, w := lcg w.w w.nn } := ⟨_, rfl⟩
    have hstart : exec i (s.inRun .mrRound .mr w) = .next (s.inRun .pmLoop .mr (roundStart u)) := by
      rw [exec_mrRound i rfl, mrRound_prob_next hmode (show w.i ≠ 0 by omega), hu]
      simp only [State.inRun_work, hc, Nat.add_sub_cancel]
      rfl
    have hrounds : mrRounds w.nn w.s w.d (c + 1) w.w = (roundF u.nn u.s u.d u.w && mrRounds u.nn u.s u.d c u.w) := by
      rw [hu]; rfl
    have hBu : bitlen u.d + squarings u.s + 4 ≤ B := by rw [hu]; exact hB
    rw [hrounds, Nat.succ_mul]
    cases hround : roundF u.nn u.s u.d u.w with
    | false =>
      obtain ⟨n, w', hn, hrun⟩ := execN_round_fails i s u hround
      exact ⟨n + 1, w', by omega, (execN_succ_of_exec hstart).trans hrun⟩
    | true =>
      obtain ⟨n, v, hn, hsame, hrun⟩ := execN_round_passes i s u hround
      have hnext : nextWitness (cmdFields i) v = v := by rw [nextWitness, hmode]
      rw [hnext] at hrun
      obtain ⟨hnn, hd, hs, hw, hi, -⟩ := hsame
      obtain ⟨m, w', hm, hrest⟩ := ih v (by rwa [hd, hs]) (by rw [hi, hu])
      rw [hnn, hd, hs, hw] at hrest
      exact ⟨n + 1 + m, w', by omega, execN_trans ((execN_succ_of_exec hstart).trans hrun) hrest⟩

/-- The rounds of the deterministic test, for the witnesses up to `wb`. -/
theorem execN_rounds_det (hmode : (cmdFields i).mode = .det) (s : State) (B c : Nat) (w : Work)
    (hB : bitlen w.d + squarings w.s + 4 ≤ B) (hc : w.wb + 1 - w.w = c) :
    ∃ n w', n ≤ c * B + 1 ∧ execN n i (s.inRun .mrRound .mr w) =
      .next (completeOk (.verdict (mrdRounds w.nn w.s w.d c w.w)) (s.inRun .mrRound .mr w')) := by
  induction c generalizing w with
  | zero =>
    have hend : w.wb < w.w := by omega
    exact ⟨1, w, by omega, execN_one ((exec_mrRound i rfl).trans (congrArg _ (mrRound_det_end hmode hend)))⟩
  | succ c ih =>
    have hstart : exec i (s.inRun .mrRound .mr w) = .next (s.inRun .pmLoop .mr (roundStart w)) := by
      rw [exec_mrRound i rfl, mrRound_det_next hmode (show w.w ≤ w.wb by omega)]
      rfl
    rw [mrdRounds, Nat.succ_mul]
    cases hround : roundF w.nn w.s w.d w.w with
    | false =>
      obtain ⟨n, w', hn, hrun⟩ := execN_round_fails i s w hround
      exact ⟨n + 1, w', by omega, (execN_succ_of_exec hstart).trans hrun⟩
    | true =>
      obtain ⟨n, v, hn, hsame, hrun⟩ := execN_round_passes i s w hround
      obtain ⟨hnn, hd, hs, hw, -, hwb⟩ := hsame
      obtain ⟨u, hu⟩ : ∃ u, u = nextWitness (cmdFields i) v := ⟨_, rfl⟩
      have hnext : u = { v with w := v.w + 1 } := by rw [hu, nextWitness, hmode]
      have hnn' : u.nn = w.nn := by rw [hnext, ← hnn]
      have hd' : u.d = w.d := by rw [hnext, ← hd]
      have hs' : u.s = w.s := by rw [hnext, ← hs]
      have hw' : u.w = w.w + 1 := by rw [hnext, ← hw]
      have hwb' : u.wb = w.wb := by rw [hnext, ← hwb]
      obtain ⟨m, w', hm, hrest⟩ := ih u (by rwa [hd', hs']) (by omega)
      rw [hnn', hd', hs', hw'] at hrest
      rw [← hu] at hrun
      exact ⟨n + 1 + m, w', by omega, execN_trans ((execN_succ_of_exec hstart).trans hrun) hrest⟩

/-! ### The set-up and the seed (R183, R186, R187) -/

/-- From `MR_START` to the exit of the factorisation of `nn - 1`. -/
theorem execN_setup (i : Instr) (s : State) (rt : Ret) (w : Work) {k d : Nat} (hn : (cmdFields i).mode.limit < w.nn)
    (hfac : w.nn - 1 = 2 ^ k * d) :
    execN (1 + k) i (s.inRun .mrStart rt w) = .next (s.inRun .f2Loop .mr { w with fd := d, fs := k }) := by
  have hstart : exec i (s.inRun .mrStart rt w) = .next (s.inRun .f2Loop .mr { w with fd := w.nn - 1, fs := 0 }) := by
    rw [exec_mrStart i rfl, mrStart_setup hn]
    rfl
  have hloop := execN_f2Loop i s .mr d k { w with fd := w.nn - 1, fs := 0 } hfac
  rw [execN_trans (execN_one hstart) hloop, Nat.zero_add]

/-- A silent source is waited for, one micro-step an entry (R187, log 5). -/
theorem execN_waits (i : Instr) (rt : Ret) (w : Work) (quiet tail : List RngPins) (hquiet : ∀ x ∈ quiet, x.silent) (s : State)
    (hrng : s.rng = quiet ++ tail) :
    execN quiet.length i (s.inRun .mrSeed rt w) = .next (({ s with rng := tail } : State).inRun .mrSeed rt w) := by
  induction quiet generalizing s with
  | nil =>
    rw [List.nil_append] at hrng
    rw [← hrng]
    rfl
  | cons p quiet ih =>
    have hwait : exec i (s.inRun .mrSeed rt w) =
        .next (({ s with rng := quiet ++ tail } : State).inRun .mrSeed rt w) := by
      rw [exec_mrSeed i rfl, mrSeed_silent (s := s.inRun .mrSeed rt w) hrng (hquiet p List.mem_cons_self)]
      rfl
    rw [List.length_cons, execN_succ_of_exec hwait, ih (fun x hx => hquiet x (List.mem_cons_of_mem p hx)) _ rfl]

end

end Sys2Proof.Machine
end

section
/-! PROOF. MR, MRD and CHECK from START to the commit (spec/43_miller_rabin.md sections 2 and 3, spec/44_candidate_check.md), with
the bounds of spec/70_reset_and_hazards.md R282. -/

namespace Sys2Proof.Machine

open Config

/-! ### The factorisation of `nn - 1` and the length of a round -/

/-- `n - 1 = 2 ^ k * d` with `d` odd: what `fac2_f` gives, and the bounds that hold for `n` below `2 ^ W`. -/
structure Factored (W n k d : Nat) : Prop where
  product : n - 1 = 2 ^ k * d
  odd     : d % 2 = 1
  fac2    : fac2F (n - 1) = (k, d)
  count   : k < W
  length  : bitlen d + k ≤ W

theorem exists_factored {W n : Nat} (hn : 1 < n) (hlt : n < 2 ^ W) : ∃ k d, Factored W n k d := by
  obtain ⟨k, d, hodd, hfac⟩ := Nat.exists_eq_two_pow_mul_odd (show n - 1 ≠ 0 by omega)
  have hd := Nat.odd_iff.1 hodd
  have hlt' : d * 2 ^ k < 2 ^ W := by rw [mul_comm, ← hfac]; omega
  have hk : k < W := shifts_lt_width (by omega) rfl hlt'
  have hlen : bitlen d ≤ W - k := by
    rw [bitlen_le_iff, ← Nat.mul_lt_mul_right (Nat.two_pow_pos k), ← pow_add, Nat.sub_add_cancel hk.le]
    exact hlt'
  exact ⟨k, d, hfac, hd, by rw [hfac, fac2F_eq hd], hk, by omega⟩

/-- A round takes at most `2 W + 2` micro-steps (R282). -/
theorem Factored.round_le {W n k d : Nat} (h : Factored W n k d) (hW : 2 ≤ W) : bitlen d + squarings k + 4 ≤ 2 * W + 2 := by
  have hsq := squarings_le k
  have hlen := h.length
  omega

/-! ### From `MR_START` to the commit -/

/-- The registers after the factorisation of `nn - 1` (R148). -/
def factoredWork (w : Work) (k d : Nat) : Work := { w with fd := d, fs := k, d := d, s := k }

/-- `s` with `rng_req` raised and the coming answers `answers`. -/
def State.asking (s : State) (answers : List RngPins) : State := { s with rngReq := true, rng := answers }

section
variable {s : State} {i : Instr} {W k d : Nat} {w : Work} {rt : Ret} {p : RngPins} {rest : List RngPins}

theorem execN_mrStart_rejects (hrun : s.status = Status.running s.status.wign) (hreq : s.rngReq = false) (rt : Ret) (w : Work)
    (hn : w.nn ≤ (cmdFields i).mode.limit) :
    execN 1 i (s.inRun .mrStart rt w) = .next { s with
      status := Status.ofError s.status.wign .invalidInput, phase := .idle, work := w, ret := rt } := by
  rw [execN_one ((exec_mrStart i rfl).trans (congrArg _ (mrStart_reject hn))),
    completeErr_of_running (s := s.inRun .mrStart rt w) hrun hreq]
  rfl

/-- The factored operand raises the request, and the silent entries pass (R148, R187). -/
theorem execN_asks (hmode : (cmdFields i).mode = .prob) (hn : 4 < w.nn) (hfac : Factored W w.nn k d) {quiet tail : List RngPins}
    (hquiet : ∀ x ∈ quiet, x.silent) (hrng : s.rng = quiet ++ tail) :
    execN (1 + k + 1 + quiet.length) i (s.inRun .mrStart rt w) =
      .next ((s.asking tail).inRun .mrSeed .mr (factoredWork w k d)) := by
  have hlimit : (cmdFields i).mode.limit < w.nn := by rw [hmode]; exact hn
  have hexit : exec i (s.inRun .f2Loop .mr { w with fd := d, fs := k }) =
      .next ((s.asking s.rng).inRun .mrSeed .mr (factoredWork w k d)) := by
    rw [exec_f2Loop i rfl, f2Loop_exit_prob hfac.odd rfl hmode]
    rfl
  exact execN_trans (execN_trans (execN_setup i s rt w hlimit hfac.product) (execN_one hexit))
    (execN_waits i .mr _ quiet tail hquiet _ hrng)

/-- The source fails (R186). -/
theorem exec_seed_fails (hrun : s.status = Status.running s.status.wign) (hreq : s.rngReq = false) (hfail : p.fail = true) :
    exec i ((s.asking (p :: rest)).inRun .mrSeed rt w) = .next { s with
      status := Status.ofError s.status.wign .sourceUnavailable, phase := .idle, work := w, ret := rt, rng := rest } := by
  rw [exec_mrSeed i rfl, mrSeed_fail (s := (s.asking (p :: rest)).inRun .mrSeed rt w) rfl hfail,
    ← Status.failed_of_running hrun, hreq]
  rfl

/-- The source answers with the seed (R186). -/
theorem exec_seed_word (hreq : s.rngReq = false) (hfail : p.fail = false) (hvalid : p.valid = true) :
    exec i ((s.asking (p :: rest)).inRun .mrSeed rt w) =
      .next (({ s with rng := rest } : State).inRun .mrRound rt { w with w := zextW p.word, i := (cmdFields i).acc }) := by
  rw [exec_mrSeed i rfl, mrSeed_word (s := (s.asking (p :: rest)).inRun .mrSeed rt w) rfl hfail hvalid, ← hreq]
  rfl

/-- The probabilistic test of an operand above 4, once the source answers (R180). -/
theorem execN_prob (hmode : (cmdFields i).mode = .prob) (hrun : s.status = Status.running s.status.wign)
    (hreq : s.rngReq = false) (hW : 2 ≤ W) (rt : Ret) (w : Work) (hn : 4 < w.nn) (hlt : w.nn < 2 ^ W)
    {quiet : List RngPins} (hquiet : ∀ x ∈ quiet, x.silent) (hp : p.answers) (hrng : s.rng = quiet ++ p :: rest) :
    ∃ n wk rt', n ≤ W + 3 + (cmdFields i).acc * (2 * W + 2) + quiet.length ∧
      execN n i (s.inRun .mrStart rt w) = .next { s with
        status := Status.ofTest s.status.wign (mrF w.nn (cmdFields i).acc p), phase := .idle, work := wk, ret := rt',
        rng := rest } := by
  obtain ⟨k, d, hfac⟩ := exists_factored (by omega) hlt
  have hasks := execN_asks (rt := rt) hmode hn hfac hquiet hrng
  have hcount := hfac.count
  rw [mrF, if_neg (by omega), hfac.fac2]
  cases hfail : p.fail with
  | true =>
    exact ⟨_, _, _, by omega, execN_trans hasks (execN_one (exec_seed_fails hrun hreq hfail))⟩
  | false =>
    have hvalid : p.valid = true := hp.resolve_right (by simp [hfail])
    obtain ⟨n, wk, hle, hrounds⟩ := execN_rounds_prob hmode { s with rng := rest } (2 * W + 2)
      { factoredWork w k d with w := zextW p.word, i := (cmdFields i).acc } (hfac.round_le hW)
    rw [verdict_of_running (s := { s with rng := rest }) hrun] at hrounds
    have hle' : n ≤ (cmdFields i).acc * (2 * W + 2) + 1 := hle
    exact ⟨_, _, _, by omega,
      execN_trans hasks (execN_trans (execN_one (exec_seed_word hreq hfail hvalid)) hrounds)⟩

/-- The deterministic test of an operand above 3, whatever `LNB` is (R181). -/
theorem execN_det (hmode : (cmdFields i).mode = .det) (hrun : s.status = Status.running s.status.wign) (hW : 2 ≤ W) (rt : Ret)
    (w : Work) (hn : 3 < w.nn) (hlt : w.nn < 2 ^ W) :
    ∃ n wk rt', n ≤ W + 3 + (mrdBoundF w.nn (lnb w.nn) - 1) * (2 * W + 2) ∧
      execN n i (s.inRun .mrStart rt w) = .next { s with
        status := Status.ofTest s.status.wign (mrdF w.nn (lnb w.nn)), phase := .idle, work := wk, ret := rt' } := by
  obtain ⟨k, d, hfac⟩ := exists_factored (by omega) hlt
  have hlimit : (cmdFields i).mode.limit < w.nn := by rw [hmode]; exact hn
  have hexit : exec i (s.inRun .f2Loop .mr { w with fd := d, fs := k }) =
      .next (s.inRun .mrdBound .mr (factoredWork w k d)) := by
    rw [exec_f2Loop i rfl, f2Loop_exit_det hfac.odd rfl hmode]
    rfl
  have hbound : exec i (s.inRun .mrdBound .mr (factoredWork w k d)) =
      .next (s.inRun .mrRound .mr { factoredWork w k d with wb := mrdBoundF w.nn (lnb w.nn), w := 2 }) :=
    exec_mrdBound i rfl
  have hsetup := execN_trans (execN_setup i s rt w hlimit hfac.product) (execN_trans (execN_one hexit) (execN_one hbound))
  obtain ⟨n, wk, hle, hrounds⟩ := execN_rounds_det hmode s (2 * W + 2) (mrdBoundF w.nn (lnb w.nn) - 1)
    { factoredWork w k d with wb := mrdBoundF w.nn (lnb w.nn), w := 2 } (hfac.round_le hW) (Nat.add_sub_add_right _ 1 1)
  rw [verdict_of_running hrun] at hrounds
  have hcount := hfac.count
  rw [mrdF, if_neg (by omega), hfac.fac2]
  exact ⟨_, _, _, by omega, execN_trans hsetup hrounds⟩

end

/-! ### The commands (R129) -/

theorem State.WidthOk.two_le {s : State} (hw : s.WidthOk) : 2 ≤ s.W := by
  have := hw.1
  unfold State.W
  omega

/-- START of MR and MRD (R182). -/
theorem exec_startTest {s : State} {i : Instr} (hph : s.phase = .start) (hi : startOf i = startTest) :
    exec i s = .next (s.inRun .mrStart s.ret { s.work with nn := s.A }) := by
  rw [exec_start i hph, hi]
  rfl

/-- Settles O43: START, the precondition, and above it the witness loop with its seed. -/
theorem probabilisticTestComputes : Obligations.ProbabilisticTestComputes := by
  intro s acc ⟨hph, hrun, hreq⟩ hw hlt
  have hstart := execN_one (exec_startTest (i := .mr acc) hph rfl)
  refine ⟨fun hA => ⟨_, _, execN_trans hstart (execN_mrStart_rejects hrun hreq _ _ hA)⟩, ?_⟩
  intro hA quiet p rest hquiet hp hrng
  obtain ⟨n, wk, rt, hn, hloop⟩ := execN_prob (i := .mr acc) rfl hrun hreq hw.two_le s.ret { s.work with nn := s.A } hA hlt
    hquiet hp hrng
  have hn' : n ≤ s.W + 3 + acc * (2 * s.W + 2) + quiet.length := hn
  exact ⟨1 + n, wk, rt, by omega, execN_trans hstart hloop⟩

/-- Settles O44: START, the precondition, and above it the witness loop up to the bound. -/
theorem deterministicTestComputes : Obligations.DeterministicTestComputes := by
  intro s ⟨hph, hrun, hreq⟩ hw hlt
  have hstart := execN_one (exec_startTest (i := .mrd) hph rfl)
  by_cases hA : s.A ≤ 3
  · rw [mrdF, if_pos hA]
    exact ⟨1 + 1, _, _, by omega, execN_trans hstart (execN_mrStart_rejects hrun hreq _ _ hA)⟩
  · obtain ⟨n, wk, rt, hn, hloop⟩ := execN_det (i := .mrd) rfl hrun hw.two_le s.ret { s.work with nn := s.A }
      (Nat.lt_of_not_le hA) hlt
    have hn' : n ≤ s.W + 3 + (min (s.A - 1) (lnb s.A) - 1) * (2 * s.W + 2) := hn
    exact ⟨1 + n, wk, rt, by omega, execN_trans hstart hloop⟩

/-- An operand the filter accepts comes to the witness loop (R210, R211). -/
theorem execN_check_accepts {s : State} {i : Instr} (hph : s.phase = .start) (hi : startOf i = startFilter)
    (hop : (cmdFields i).op ≠ 0x03) (hF : tdivF s.A (cmdFields i).klim = true) :
    execN (1 + (cmdFields i).klim + 1) i s =
      .next (s.inRun .mrStart s.ret { s.work with nn := s.A, k := (cmdFields i).klim }) := by
  have hend : exec i (s.inRun .tdLoop s.ret { s.work with nn := s.A, k := (cmdFields i).klim }) =
      .next (s.inRun .mrStart s.ret { s.work with nn := s.A, k := (cmdFields i).klim }) := by
    rw [exec_tdLoop i rfl, tdLoop_end_check rfl hop]
    rfl
  exact execN_trans (execN_filter_accepts hph hi hF) (execN_one hend)

/-- Settles O45, by the answer of the filter and then the precondition; above it the witness loop is MR's. -/
theorem candidateCheckComputes : Obligations.CandidateCheckComputes := by
  intro s acc ⟨hph, hrun, hreq⟩ hw hlt p hp
  obtain ⟨i, klim⟩ := p
  have hi : startOf i = startFilter := by fin_cases hp <;> rfl
  have hop : (cmdFields i).op ≠ 0x03 := by fin_cases hp <;> simp [cmdFields]
  have hmode : (cmdFields i).mode = .prob := by fin_cases hp <;> rfl
  have hacc : (cmdFields i).acc = acc := by fin_cases hp <;> rfl
  obtain rfl : (cmdFields i).klim = klim := by fin_cases hp <;> rfl
  refine ⟨fun hF => ?rejected, fun hF hA => ?small, fun hF hA quiet a rest hquiet ha hrng => ?tested⟩
  case rejected =>
    obtain ⟨n, w, hn, hexec⟩ := execN_filter_rejects hph hi hF
    exact ⟨n, w, s.ret, hn, hexec.trans (congrArg _ (verdict_of_running hrun false _ _ _))⟩
  case small =>
    have hlimit : s.A ≤ (cmdFields i).mode.limit := by rw [hmode]; exact hA
    have hend := execN_mrStart_rejects hrun hreq s.ret { s.work with nn := s.A, k := (cmdFields i).klim } hlimit
    have hlen : (cmdFields i).klim + 3 = 1 + (cmdFields i).klim + 1 + 1 := by omega
    exact ⟨_, _, hlen ▸ execN_trans (execN_check_accepts hph hi hop hF) hend⟩
  case tested =>
    obtain ⟨n, wk, rt, hn, hloop⟩ := execN_prob (i := i) hmode hrun hreq hw.two_le s.ret
      { s.work with nn := s.A, k := (cmdFields i).klim } hA hlt hquiet ha hrng
    rw [hacc] at hn hloop
    rw [checkF, if_pos hF]
    exact ⟨_, wk, rt, by dsimp only; omega, execN_trans (execN_check_accepts hph hi hop hF) hloop⟩

end Sys2Proof.Machine
end

section
/-! PROOF. Working registers reach no result (spec/70_reset_and_hazards.md R281): what a command still reads in each phase was
written since START. From it, CHECK as the sequence of its parts (spec/44_candidate_check.md R212). -/

namespace Sys2Proof.Machine

/-! ### The live registers of each phase -/

/-- `s` with other working registers and another tag. -/
def State.withWork (s : State) (w : Work) (rt : Ret) : State := { s with work := w, ret := rt }

/-- `u` and `v` agree on the registers a round of the witness loop still reads. -/
structure LoopAgree (f : CmdFields) (u v : Work) : Prop where
  nn      : v.nn = u.nn
  d       : v.d = u.d
  s       : v.s = u.s
  witness : v.w = u.w
  rounds  : f.mode = .prob → v.i = u.i
  bound   : f.mode = .det → v.wb = u.wb

/-- `w` and `rt` agree with `s` on every register the command still reads. -/
def LiveAgree (f : CmdFields) (s : State) (w : Work) (rt : Ret) : Prop :=
  match s.phase with
  | .idle => True
  | .start => True
  | .pmLoop =>
    rt = s.ret ∧ w.r = s.work.r ∧ w.b = s.work.b ∧ w.e = s.work.e ∧ w.m = s.work.m ∧ (s.ret = .mr → LoopAgree f s.work w)
  | .f2Loop => rt = s.ret ∧ w.fd = s.work.fd ∧ w.fs = s.work.fs ∧ (s.ret = .mr → w.nn = s.work.nn)
  | .tdLoop => w.nn = s.work.nn ∧ w.k = s.work.k
  | .mrStart => w.nn = s.work.nn
  | .mrSeed => f.mode = .prob ∧ w.nn = s.work.nn ∧ w.d = s.work.d ∧ w.s = s.work.s
  | .mrdBound => f.mode = .det ∧ w.nn = s.work.nn ∧ w.d = s.work.d ∧ w.s = s.work.s
  | .mrRound => LoopAgree f s.work w
  | .mrCheckX => LoopAgree f s.work w ∧ w.x = s.work.x
  | .mrSq => LoopAgree f s.work w ∧ w.x = s.work.x ∧ w.j = s.work.j

/-- The two states differ in dead registers only: `v` is `t` with some other working registers that agree where it matters. -/
def Alike (f : CmdFields) (t v : State) : Prop := ∃ w rt, v = t.withWork w rt ∧ LiveAgree f t w rt

section
variable {f : CmdFields} {s : State} {w : Work} {rt : Ret}

theorem alike_completeErr (c : ErrCode) : Alike f (completeErr c s) (completeErr c (s.withWork w rt)) :=
  ⟨w, rt, rfl, trivial⟩

theorem alike_completeOk (res : Result) : Alike f (completeOk res s) (completeOk res (s.withWork w rt)) := by
  cases res <;> exact ⟨w, rt, rfl, trivial⟩

/-! ### A micro-step of two states alike -/

theorem startOf_alike (i : Instr) (s : State) (w : Work) (rt : Ret) :
    Alike (cmdFields i) (startOf i s) (startOf i (s.withWork w rt)) := by
  cases i with
  | powmod =>
    show Alike _ (startPowmod s) (startPowmod (s.withWork w rt))
    by_cases hM : s.M = 0
    · rw [startPowmod_zero hM, startPowmod_zero (s := s.withWork w rt) hM]
      exact alike_completeErr _
    · rw [startPowmod_ne_zero hM, startPowmod_ne_zero (s := s.withWork w rt) hM]
      exact ⟨{ w with r := 1, b := s.A, e := s.E, m := s.M }, .cmd, rfl, rfl, rfl, rfl, rfl, rfl, nofun⟩
  | fac2 =>
    show Alike _ (startFac2 s) (startFac2 (s.withWork w rt))
    by_cases hA : s.A = 0
    · rw [startFac2_zero hA, startFac2_zero (s := s.withWork w rt) hA]
      exact alike_completeErr _
    · rw [startFac2_ne_zero hA, startFac2_ne_zero (s := s.withWork w rt) hA]
      exact ⟨{ w with fd := s.A, fs := 0 }, .cmd, rfl, rfl, rfl, rfl, nofun⟩
  | tdiv100 => exact ⟨{ w with nn := s.A, k := 0 }, rt, rfl, rfl, rfl⟩
  | tdiv1000 => exact ⟨{ w with nn := s.A, k := 0 }, rt, rfl, rfl, rfl⟩
  | check100 acc => exact ⟨{ w with nn := s.A, k := 0 }, rt, rfl, rfl, rfl⟩
  | check1000 acc => exact ⟨{ w with nn := s.A, k := 0 }, rt, rfl, rfl, rfl⟩
  | mr acc => exact ⟨{ w with nn := s.A }, rt, rfl, rfl⟩
  | mrd => exact ⟨{ w with nn := s.A }, rt, rfl, rfl⟩

theorem pmLoop_alike (hph : s.phase = .pmLoop) (h : LiveAgree f s w rt) : Alike f (pmLoop s) (pmLoop (s.withWork w rt)) := by
  simp only [LiveAgree, hph] at h
  obtain ⟨rfl, hr, hb, he, hm, hloop⟩ := h
  by_cases he0 : s.work.e = 0
  · cases hret : s.ret with
    | cmd =>
      rw [pmLoop_exit_cmd he0 hret, pmLoop_exit_cmd (s := s.withWork w .cmd) (he.trans he0) rfl, ← hr]
      exact alike_completeOk _
    | mr =>
      rw [pmLoop_exit_mr he0 hret, pmLoop_exit_mr (s := s.withWork w .mr) (he.trans he0) rfl]
      exact ⟨{ w with x := w.r }, .mr, rfl, { hloop hret with }, hr⟩
  · rw [pmLoop, pmLoop, if_neg he0, if_neg (show (s.withWork w s.ret).work.e ≠ 0 from he ▸ he0)]
    refine ⟨pmPass w, s.ret, rfl, rfl, ?_, ?_, ?_, hm, fun hret => { hloop hret with }⟩
    · simp only [pmPass, hr, hb, he, hm]
    · simp only [pmPass, hb, hm]
    · simp only [pmPass, he]

theorem f2Loop_alike (hph : s.phase = .f2Loop) (h : LiveAgree f s w rt) :
    Alike f (f2Loop f s) (f2Loop f (s.withWork w rt)) := by
  simp only [LiveAgree, hph] at h
  obtain ⟨rfl, hfd, hfs, hnn⟩ := h
  obtain heven | hodd := Nat.mod_two_eq_zero_or_one s.work.fd
  · rw [f2Loop, f2Loop, if_pos heven, if_pos (show (s.withWork w s.ret).work.fd % 2 = 0 from hfd ▸ heven)]
    exact ⟨{ w with fd := w.fd / 2, fs := w.fs + 1 }, s.ret, rfl, rfl, congrArg (· / 2) hfd, congrArg (· + 1) hfs, hnn⟩
  · have hodd' : w.fd % 2 = 1 := hfd ▸ hodd
    cases hret : s.ret with
    | cmd =>
      rw [f2Loop_exit_cmd hodd hret, f2Loop_exit_cmd (s := s.withWork w .cmd) hodd' rfl, ← hfd, ← hfs]
      exact alike_completeOk _
    | mr =>
      cases hmode : f.mode with
      | prob =>
        rw [f2Loop_exit_prob hodd hret hmode, f2Loop_exit_prob (s := s.withWork w .mr) hodd' rfl hmode]
        exact ⟨{ w with d := w.fd, s := w.fs }, .mr, rfl, hmode, hnn hret, hfd, hfs⟩
      | det =>
        rw [f2Loop_exit_det hodd hret hmode, f2Loop_exit_det (s := s.withWork w .mr) hodd' rfl hmode]
        exact ⟨{ w with d := w.fd, s := w.fs }, .mr, rfl, hmode, hnn hret, hfd, hfs⟩

theorem tdLoop_alike (hph : s.phase = .tdLoop) (h : LiveAgree f s w rt) :
    Alike f (tdLoop f s) (tdLoop f (s.withWork w rt)) := by
  simp only [LiveAgree, hph] at h
  obtain ⟨hnn, hk⟩ := h
  have hk' : (s.withWork w rt).work.k = s.work.k := hk
  have hnn' : (s.withWork w rt).work.nn = s.work.nn := hnn
  rw [tdLoop, tdLoop, hk', hnn']
  split
  · split
    · exact alike_completeOk _
    · exact ⟨w, rt, rfl, hnn⟩
  · split
    · exact alike_completeOk _
    · exact ⟨{ w with k := s.work.k + 1 }, rt, rfl, hnn, rfl⟩

theorem mrStart_alike (hph : s.phase = .mrStart) (h : LiveAgree f s w rt) :
    Alike f (mrStart f s) (mrStart f (s.withWork w rt)) := by
  simp only [LiveAgree, hph] at h
  have hnn : (s.withWork w rt).work.nn = s.work.nn := h
  rw [mrStart, mrStart, hnn]
  split
  · exact alike_completeErr _
  · exact ⟨{ w with fd := s.work.nn - 1, fs := 0 }, .mr, rfl, rfl, rfl, rfl, fun _ => h⟩

theorem mrSeed_alike (hph : s.phase = .mrSeed) (h : LiveAgree f s w rt) :
    Alike f (mrSeed f s) (mrSeed f (s.withWork w rt)) := by
  have hlive := h
  simp only [LiveAgree, hph] at h
  obtain ⟨hmode, hnn, hd, hs⟩ := h
  cases hrng : s.rng with
  | nil =>
    rw [mrSeed_empty hrng, mrSeed_empty (s := s.withWork w rt) hrng]
    exact ⟨w, rt, rfl, hlive⟩
  | cons p rest =>
    have hrng' : (s.withWork w rt).rng = p :: rest := hrng
    cases hfail : p.fail with
    | true =>
      rw [mrSeed_fail hrng hfail, mrSeed_fail hrng' hfail]
      exact alike_completeErr (s := { s with rng := rest }) _
    | false =>
      cases hvalid : p.valid with
      | true =>
        rw [mrSeed_word hrng hfail hvalid, mrSeed_word hrng' hfail hvalid]
        exact ⟨{ w with w := zextW p.word, i := f.acc }, rt, rfl, hnn, hd, hs, rfl, fun _ => rfl,
          fun hdet => by simp [hmode] at hdet⟩
      | false =>
        rw [mrSeed_silent hrng ⟨hvalid, hfail⟩, mrSeed_silent hrng' ⟨hvalid, hfail⟩]
        exact ⟨w, rt, rfl, hlive⟩

theorem mrdBound_alike (hph : s.phase = .mrdBound) (h : LiveAgree f s w rt) :
    Alike f (mrdBound s) (mrdBound (s.withWork w rt)) := by
  simp only [LiveAgree, hph] at h
  obtain ⟨hmode, hnn, hd, hs⟩ := h
  refine ⟨{ w with wb := min (w.nn - 1) (Config.lnb w.nn), w := 2 }, rt, rfl, hnn, hd, hs, rfl, fun hprob => ?_, fun _ => ?_⟩
  · simp [hmode] at hprob
  · show min (w.nn - 1) (Config.lnb w.nn) = min (s.work.nn - 1) (Config.lnb s.work.nn)
    rw [hnn]

theorem startRound_alike {u v : Work} (h : LoopAgree f u v) :
    Alike f (startRound u s) (startRound v (s.withWork w rt)) :=
  ⟨{ v with r := 1, b := v.w, e := v.d, m := v.nn }, .mr, rfl, rfl, rfl, h.witness, h.d, h.nn, fun _ => { h with }⟩

theorem mrRound_alike (hph : s.phase = .mrRound) (h : LiveAgree f s w rt) :
    Alike f (mrRound f s) (mrRound f (s.withWork w rt)) := by
  simp only [LiveAgree, hph] at h
  have hw : (s.withWork w rt).work.w = s.work.w := h.witness
  cases hmode : f.mode with
  | prob =>
    have hi : (s.withWork w rt).work.i = s.work.i := h.rounds hmode
    by_cases hend : s.work.i = 0
    · rw [mrRound_prob_end hmode hend, mrRound_prob_end hmode (hi.trans hend)]
      exact alike_completeOk _
    · rw [mrRound_prob_next hmode hend, mrRound_prob_next hmode (hi ▸ hend)]
      refine startRound_alike { h with witness := ?_, rounds := fun hprob => ?_ }
      · show lcg w.w w.nn = _
        rw [h.witness, h.nn]
      · exact congrArg (· - 1) hi
  | det =>
    have hwb : (s.withWork w rt).work.wb = s.work.wb := h.bound hmode
    obtain hend | hnext := Nat.lt_or_ge s.work.wb s.work.w
    · rw [mrRound_det_end hmode hend, mrRound_det_end hmode (by rwa [hwb, hw])]
      exact alike_completeOk _
    · rw [mrRound_det_next hmode hnext, mrRound_det_next hmode (by rwa [hwb, hw])]
      exact startRound_alike h

theorem roundPasses_alike {u v : Work} (h : LoopAgree f u v) :
    Alike f (roundPasses f u s) (roundPasses f v (s.withWork w rt)) := by
  cases hmode : f.mode with
  | prob =>
    rw [roundPasses_prob hmode, roundPasses_prob hmode]
    exact ⟨v, rt, rfl, h⟩
  | det =>
    rw [roundPasses_det hmode, roundPasses_det hmode]
    exact ⟨{ v with w := v.w + 1 }, rt, rfl, { h with witness := congrArg (· + 1) h.witness }⟩

theorem mrCheckX_alike (hph : s.phase = .mrCheckX) (h : LiveAgree f s w rt) :
    Alike f (mrCheckX f s) (mrCheckX f (s.withWork w rt)) := by
  simp only [LiveAgree, hph] at h
  obtain ⟨hloop, hx⟩ := h
  have hx' : (s.withWork w rt).work.x = s.work.x := hx
  have hnn' : (s.withWork w rt).work.nn = s.work.nn := hloop.nn
  rw [mrCheckX, mrCheckX, hx', hnn']
  split
  · exact roundPasses_alike hloop
  · exact ⟨{ w with j := squarings w.s }, rt, rfl, { hloop with }, hx, congrArg squarings hloop.s⟩

theorem mrSq_square (hj : s.work.j ≠ 0) (hx : s.work.x * s.work.x % s.work.nn ≠ s.work.nn - 1) :
    mrSq f s = { s with
      work := { s.work with x := s.work.x * s.work.x % s.work.nn, j := s.work.j - 1 }, phase := .mrSq } :=
  (if_neg hj).trans (if_neg hx)

theorem mrSq_alike (hph : s.phase = .mrSq) (h : LiveAgree f s w rt) : Alike f (mrSq f s) (mrSq f (s.withWork w rt)) := by
  simp only [LiveAgree, hph] at h
  obtain ⟨hloop, hx, hj⟩ := h
  have hj' : (s.withWork w rt).work.j = s.work.j := hj
  have hx' : w.x * w.x % w.nn = s.work.x * s.work.x % s.work.nn := by rw [hx, hloop.nn]
  by_cases hj0 : s.work.j = 0
  · rw [mrSq_fail hj0, mrSq_fail (hj'.trans hj0)]
    exact alike_completeOk _
  · have hnext : LoopAgree f { s.work with x := s.work.x * s.work.x % s.work.nn, j := s.work.j - 1 }
        { w with x := w.x * w.x % w.nn, j := w.j - 1 } := { hloop with }
    by_cases hpass : s.work.x * s.work.x % s.work.nn = s.work.nn - 1
    · rw [mrSq_pass hj0 hpass, mrSq_pass (s := s.withWork w rt) (hj' ▸ hj0) (hx'.trans (hloop.nn ▸ hpass))]
      exact roundPasses_alike hnext
    · have hpass' : w.x * w.x % w.nn ≠ w.nn - 1 := by rwa [hx', hloop.nn]
      rw [mrSq_square hj0 hpass, mrSq_square (s := s.withWork w rt) (hj' ▸ hj0) hpass']
      exact ⟨{ w with x := w.x * w.x % w.nn, j := w.j - 1 }, rt, rfl, hnext, hx', congrArg (· - 1) hj⟩

/-- The state a micro-step leads to depends on the live registers only. -/
theorem microStep_alike (i : Instr) (h : LiveAgree (cmdFields i) s w rt) :
    Alike (cmdFields i) (microStep (startOf i) (cmdFields i) s) (microStep (startOf i) (cmdFields i) (s.withWork w rt)) := by
  have hphase : (s.withWork w rt).phase = s.phase := rfl
  unfold microStep
  rw [hphase]
  cases hph : s.phase with
  | idle => exact ⟨w, rt, rfl, h⟩
  | start => exact startOf_alike i s w rt
  | pmLoop => exact pmLoop_alike hph h
  | f2Loop => exact f2Loop_alike hph h
  | tdLoop => exact tdLoop_alike hph h
  | mrStart => exact mrStart_alike hph h
  | mrSeed => exact mrSeed_alike hph h
  | mrdBound => exact mrdBound_alike hph h
  | mrRound => exact mrRound_alike hph h
  | mrCheckX => exact mrCheckX_alike hph h
  | mrSq => exact mrSq_alike hph h

end

/-- Runs from states alike end alike. -/
theorem execN_alike (n : Nat) (i : Instr) (s : State) (w : Work) (rt : Ret) (h : LiveAgree (cmdFields i) s w rt) :
    ∃ t v, execN n i s = .next t ∧ execN n i (s.withWork w rt) = .next v ∧ Alike (cmdFields i) t v := by
  induction n generalizing s w rt with
  | zero => exact ⟨s, s.withWork w rt, rfl, rfl, w, rt, rfl, h⟩
  | succ n ih =>
    obtain ⟨w', rt', hstep, hlive⟩ := microStep_alike i h
    rw [execN_succ, execN_succ, hstep]
    exact ih _ w' rt' hlive

/-- Settles O57: at START no working register is live, so the two runs stay alike (R281). -/
theorem workingRegistersReachNoResult : Obligations.WorkingRegistersReachNoResult := by
  intro i n s wk rt ⟨hph, _⟩
  have hlive : LiveAgree (cmdFields i) s wk rt := by simp only [LiveAgree, hph]
  obtain ⟨t, v, ht, hv, w, rt', rfl, -⟩ := execN_alike n i s wk rt hlive
  exact ⟨t, t.withWork w rt', ht, hv, rfl⟩

/-! ### The end of a run is unique -/

theorem execN_idle {s : State} (n : Nat) (i : Instr) (hph : s.phase = .idle) : execN n i s = .next s := by
  have hrest : exec i s = .next s := by rw [exec_eq_microStep, microStep, hph]
  induction n with
  | zero => rfl
  | succ n ih => exact (execN_succ_of_exec hrest).trans ih

/-- A run that has ended stays where it is, so two runs end in one state. -/
theorem execN_end_unique {m n : Nat} {i : Instr} {s t u : State} (ht : execN m i s = .next t) (hu : execN n i s = .next u)
    (htidle : t.phase = .idle) (huidle : u.phase = .idle) : t = u := by
  obtain ⟨c, rfl⟩ | ⟨c, rfl⟩ := (Nat.le_total m n).imp Nat.exists_eq_add_of_le Nat.exists_eq_add_of_le
  · rw [execN_add ht, execN_idle c i htidle] at hu
    injection hu
  · rw [execN_add hu, execN_idle c i huidle] at ht
    injection ht.symm

/-! ### The witness loop under MR and under CHECK -/

/-- The command is past the filter, and its loops return to the witness loop. -/
def InTest (s : State) : Prop :=
  s.phase ≠ .start ∧ s.phase ≠ .tdLoop ∧ (s.phase = .pmLoop ∨ s.phase = .f2Loop → s.ret = .mr)

/-- The witness loop reads of its command the mode and the accuracy only. -/
theorem microStep_eq_of_inTest {s : State} {i j : Instr} (h : InTest s) (hmode : (cmdFields i).mode = (cmdFields j).mode)
    (hacc : (cmdFields i).acc = (cmdFields j).acc) :
    microStep (startOf i) (cmdFields i) s = microStep (startOf j) (cmdFields j) s := by
  obtain ⟨hstart, htd, -⟩ := h
  unfold microStep
  cases hph : s.phase with
  | start => exact absurd hph hstart
  | tdLoop => exact absurd hph htd
  | f2Loop => simp only [f2Loop, hmode]
  | mrStart => simp only [mrStart, hmode]
  | mrSeed => simp only [mrSeed, hacc]
  | mrRound => simp only [mrRound, hmode]
  | mrCheckX => simp only [mrCheckX, roundPasses, hmode]
  | mrSq => simp only [mrSq, roundPasses, hmode]
  | _ => rfl

section
variable {s : State} {f : CmdFields}

theorem inTest_of_phase {t : State} {p : Phase} (hp : p ∈ [Phase.idle, .mrStart, .mrSeed, .mrdBound, .mrRound, .mrCheckX, .mrSq])
    (ht : t.phase = p) : InTest t := by
  have hnot : ∀ p ∈ [Phase.idle, .mrStart, .mrSeed, .mrdBound, .mrRound, .mrCheckX, .mrSq],
      p ≠ .start ∧ p ≠ .tdLoop ∧ p ≠ .pmLoop ∧ p ≠ .f2Loop := by decide
  obtain ⟨h1, h2, h3, h4⟩ := hnot p hp
  unfold InTest
  rw [ht]
  exact ⟨h1, h2, fun h => absurd h (not_or.2 ⟨h3, h4⟩)⟩

theorem inTest_loop {t : State} (hph : t.phase = .pmLoop ∨ t.phase = .f2Loop) (hret : t.ret = .mr) : InTest t := by
  refine ⟨?_, ?_, fun _ => hret⟩ <;> obtain h | h := hph <;> simp [h]

theorem mrRound_inTest : InTest (mrRound f s) := by
  have hcommit : InTest (completeOk (.verdict true) s) := inTest_of_phase (p := .idle) (by decide) rfl
  unfold mrRound
  cases f.mode <;> dsimp only <;> split
  · exact hcommit
  · exact inTest_loop (.inl rfl) rfl
  · exact hcommit
  · exact inTest_loop (.inl rfl) rfl

theorem roundPasses_inTest {w : Work} : InTest (roundPasses f w s) :=
  inTest_of_phase (p := .mrRound) (by decide) (roundPasses_phase f w s)

theorem pmLoop_inTest (hph : s.phase = .pmLoop) (hret : s.ret = .mr) : InTest (pmLoop s) := by
  by_cases he : s.work.e = 0
  · rw [pmLoop_exit_mr he hret]
    exact inTest_of_phase (p := .mrCheckX) (by decide) rfl
  · rw [pmLoop_pass hph he]
    exact inTest_loop (.inl hph) hret

theorem f2Loop_inTest (hph : s.phase = .f2Loop) (hret : s.ret = .mr) : InTest (f2Loop f s) := by
  obtain heven | hodd := Nat.mod_two_eq_zero_or_one s.work.fd
  · rw [f2Loop_shift hph heven]
    exact inTest_loop (.inr hph) hret
  · cases hmode : f.mode with
    | prob =>
      rw [f2Loop_exit_prob hodd hret hmode]
      exact inTest_of_phase (p := .mrSeed) (by decide) rfl
    | det =>
      rw [f2Loop_exit_det hodd hret hmode]
      exact inTest_of_phase (p := .mrdBound) (by decide) rfl

theorem mrStart_inTest : InTest (mrStart f s) := by
  unfold mrStart
  split
  · exact inTest_of_phase (p := .idle) (by decide) rfl
  · exact inTest_loop (.inr rfl) rfl

theorem mrSeed_inTest (hph : s.phase = .mrSeed) : InTest (mrSeed f s) := by
  have hwait (rest : List RngPins) : InTest { s with rng := rest } := inTest_of_phase (p := .mrSeed) (by decide) hph
  unfold mrSeed
  split
  · exact hwait s.rng
  split
  · exact inTest_of_phase (p := .idle) (by decide) rfl
  split
  · exact inTest_of_phase (p := .mrRound) (by decide) rfl
  · exact hwait _

theorem mrCheckX_inTest : InTest (mrCheckX f s) := by
  unfold mrCheckX
  split
  · exact roundPasses_inTest
  · exact inTest_of_phase (p := .mrSq) (by decide) rfl

theorem mrSq_inTest : InTest (mrSq f s) := by
  unfold mrSq
  split
  · exact inTest_of_phase (p := .idle) (by decide) rfl
  dsimp only
  split
  · exact roundPasses_inTest
  · exact inTest_of_phase (p := .mrSq) (by decide) rfl

/-- The witness loop stays in its phases, where `ret` is `MR`, until it commits. -/
theorem microStep_inTest (i : Instr) (h : InTest s) : InTest (microStep (startOf i) (cmdFields i) s) := by
  obtain ⟨hstart, htd, hret⟩ := id h
  unfold microStep
  cases hph : s.phase with
  | idle => exact h
  | start => exact absurd hph hstart
  | tdLoop => exact absurd hph htd
  | pmLoop => exact pmLoop_inTest hph (hret (.inl hph))
  | f2Loop => exact f2Loop_inTest hph (hret (.inr hph))
  | mrStart => exact mrStart_inTest
  | mrSeed => exact mrSeed_inTest hph
  | mrdBound => exact inTest_of_phase (p := .mrRound) (by decide) rfl
  | mrRound => exact mrRound_inTest
  | mrCheckX => exact mrCheckX_inTest
  | mrSq => exact mrSq_inTest

/-- A micro-step of the witness loop writes no result. -/
theorem microStep_keeps_results (i : Instr) (h : InTest s) :
    (microStep (startOf i) (cmdFields i) s).R = s.R ∧ (microStep (startOf i) (cmdFields i) s).S = s.S := by
  obtain ⟨-, -, hret⟩ := h
  cases (microStep_effect i s).ending with
  | runs _ hR hS => exact ⟨hR, hS⟩
  | result _ _ hcmd horigin =>
    have hmr := hret (horigin.imp_left And.left)
    rw [hcmd] at hmr
    cases hmr
  | verdict _ hR hS => exact ⟨hR, hS⟩
  | error _ hR hS => exact ⟨hR, hS⟩

end

/-- The run of the witness loop is the same under MR and under CHECK, and writes no result. -/
theorem execN_inTest (n : Nat) {i j : Instr} {s t : State} (h : InTest s) (hmode : (cmdFields i).mode = (cmdFields j).mode)
    (hacc : (cmdFields i).acc = (cmdFields j).acc) (hrun : execN n i s = .next t) :
    execN n j s = .next t ∧ t.R = s.R ∧ t.S = s.S := by
  induction n generalizing s with
  | zero => cases hrun; exact ⟨rfl, rfl, rfl⟩
  | succ n ih =>
    rw [execN_succ] at hrun ⊢
    obtain ⟨hj, hR, hS⟩ := ih (microStep_inTest i h) hrun
    obtain ⟨hR', hS'⟩ := microStep_keeps_results i h
    rw [← microStep_eq_of_inTest h hmode hacc]
    exact ⟨hj, hR.trans hR', hS.trans hS'⟩

/-! ### CHECK is TDIV and then MR (R212) -/

/-- MR's run past START, from the state in which CHECK has accepted the operand. -/
theorem execN_check_of_mr {s t : State} {i : Instr} {acc n : Nat} (hph : s.phase = .start) (hi : startOf i = startFilter)
    (hop : (cmdFields i).op ≠ 0x03) (hmode : (cmdFields i).mode = .prob) (hacc : (cmdFields i).acc = acc)
    (hF : tdivF s.A (cmdFields i).klim = true) (hmr : execN n (.mr acc) s = .next t) (hidle : t.phase = .idle) :
    ∃ m u, execN m i s = .next u ∧ u.phase = .idle ∧ u.status = t.status ∧ u.R = s.R ∧ u.S = s.S ∧ u.rng = t.rng := by
  cases n with
  | zero => cases hmr; simp [hph] at hidle
  | succ n =>
    rw [execN_succ_of_exec (exec_startTest hph rfl)] at hmr
    have hlive : LiveAgree (cmdFields (.mr acc)) (s.inRun .mrStart s.ret { s.work with nn := s.A })
        { s.work with nn := s.A, k := (cmdFields i).klim } s.ret := rfl
    obtain ⟨t', u, ht', hu, w, rt, rfl, -⟩ := execN_alike n (.mr acc) _ _ _ hlive
    obtain rfl : t = t' := by injection hmr.symm.trans ht'
    have htest : InTest (s.inRun .mrStart s.ret { s.work with nn := s.A, k := (cmdFields i).klim }) :=
      inTest_of_phase (p := .mrStart) (by decide) rfl
    have hmode' : (cmdFields (.mr acc)).mode = (cmdFields i).mode := hmode.symm
    obtain ⟨hcheck, hR, hS⟩ := execN_inTest n htest hmode' hacc.symm hu
    exact ⟨_, _, execN_trans (execN_check_accepts hph hi hop hF) hcheck, hidle, rfl, hR, hS, rfl⟩

/-- CHECK with the table of a TDIV command. -/
theorem check_is_filter_then_test {s : State} {i j : Instr} {acc : Nat} (hph : s.phase = .start)
    (hi : startOf i = startFilter) (hj : startOf j = startFilter) (hiop : (cmdFields i).op = 0x03)
    (hjop : (cmdFields j).op ≠ 0x03) (hmode : (cmdFields j).mode = .prob) (hacc : (cmdFields j).acc = acc)
    (hklim : (cmdFields j).klim = (cmdFields i).klim) {n₁ : Nat} {t₁ : State} (hrun : execN n₁ i s = .next t₁)
    (hidle : t₁.phase = .idle) :
    (t₁.status.verdict = false → ∃ n t, execN n j s = .next t ∧ t.phase = .idle ∧ t.status = t₁.status ∧
      t.R = s.R ∧ t.S = s.S ∧ t.rng = s.rng) ∧
    (t₁.status.verdict = true → ∀ (n₂ : Nat) (t₂ : State), execN n₂ (.mr acc) s = .next t₂ → t₂.phase = .idle →
      ∃ n t, execN n j s = .next t ∧ t.phase = .idle ∧ t.status = t₂.status ∧ t.R = s.R ∧ t.S = s.S ∧
        t.rng = t₂.rng) := by
  obtain ⟨n, w, -, htdiv⟩ := execN_tdiv hph hi hiop
  obtain rfl := execN_end_unique hrun htdiv hidle rfl
  rw [← hklim]
  refine ⟨fun hverdict => ?rejected, fun hverdict n₂ t₂ hmr hidle₂ => ?accepted⟩
  case rejected =>
    have hF : tdivF s.A (cmdFields j).klim = false := hverdict
    obtain ⟨m, v, -, hcheck⟩ := execN_filter_rejects hph hj hF
    exact ⟨m, _, hcheck, rfl, by rw [hF]; rfl, rfl, rfl, rfl⟩
  case accepted => exact execN_check_of_mr hph hj hjop hmode hacc hverdict hmr hidle₂

/-- Settles O46: TDIV's verdict is what CHECK's filter decides, and past it CHECK runs as MR does but for the dead `k`
(R212). -/
theorem checkIsFilterThenTest : Obligations.CheckIsFilterThenTest := by
  intro s acc ⟨hph, _⟩ p hp n₁ t₁ hrun hidle
  fin_cases hp
  · exact check_is_filter_then_test (i := .tdiv100) (j := .check100 acc) hph rfl rfl rfl (by simp [cmdFields]) rfl rfl rfl
      hrun hidle
  · exact check_is_filter_then_test (i := .tdiv1000) (j := .check1000 acc) hph rfl rfl rfl (by simp [cmdFields]) rfl rfl rfl
      hrun hidle

end Sys2Proof.Machine
end

section
/-! PROOF. What the tests of primality are worth (spec/43_miller_rabin.md R193 to R195, spec/42_trial_division.md R165): a prime
passes every filter and every round, by Fermat's theorem and because 1 has two square roots modulo a prime. -/

namespace Sys2Proof.Machine

open Config

/-! ### A round on a prime (R184) -/

section
variable {n : Nat} [Fact n.Prime]

theorem cast_eq_one_of_mod {x : Nat} (hx : (x : ZMod n) = 1) : x % n = 1 := by
  have hn : 1 < n := (Fact.out : n.Prime).one_lt
  rw [← Nat.cast_one, ZMod.natCast_eq_natCast_iff'] at hx
  rwa [Nat.mod_eq_of_lt hn] at hx

theorem cast_eq_neg_one_of_mod {x : Nat} (hx : (x : ZMod n) = -1) : x % n = n - 1 := by
  have hn : 1 < n := (Fact.out : n.Prime).one_lt
  have hneg : ((n - 1 : Nat) : ZMod n) = -1 := by rw [Nat.cast_sub hn.le, ZMod.natCast_self, Nat.cast_one, zero_sub]
  rw [← hneg, ZMod.natCast_eq_natCast_iff'] at hx
  rwa [Nat.mod_eq_of_lt (by omega : n - 1 < n)] at hx

/-- Among the squares from `x` to 1 the one before 1 is -1, if `x` itself is neither. -/
theorem squaresToMinusOne_of_prime (q x : Nat) (hone : (x : ZMod n) ≠ 1) (hneg : (x : ZMod n) ≠ -1)
    (hpow : (x : ZMod n) ^ 2 ^ (q + 1) = 1) : squaresToMinusOne q x n = true := by
  induction q generalizing x with
  | zero =>
    rw [zero_add, pow_one, pow_two, mul_self_eq_one_iff] at hpow
    exact absurd hpow (not_or.2 ⟨hone, hneg⟩)
  | succ q ih =>
    have hcast : ((x * x % n : Nat) : ZMod n) = (x : ZMod n) * x := by rw [ZMod.natCast_mod, Nat.cast_mul]
    rw [squaresToMinusOne]
    split
    next => rfl
    next hx =>
      refine ih (x * x % n) ?_ ?_ ?_
      · rw [hcast, Ne, mul_self_eq_one_iff]
        exact not_or.2 ⟨hone, hneg⟩
      · rw [hcast, ← Nat.cast_mul]
        exact mt cast_eq_neg_one_of_mod hx
      · rw [hcast, ← pow_two, ← pow_mul, ← pow_succ']
        exact hpow

/-- A prime passes every round with a witness it does not divide. -/
theorem roundF_of_prime {W k d a : Nat} (hn : 2 < n) (hfac : Factored W n k d) (ha : 0 < a) (ha' : a < n) :
    roundF n k d a = true := by
  have hprime : n.Prime := Fact.out
  have hodd : n % 2 = 1 := hprime.eq_two_or_odd.resolve_left (by omega)
  have hk : k ≠ 0 := by
    rintro rfl
    have := hfac.product
    have := hfac.odd
    omega
  obtain ⟨q, rfl⟩ := Nat.exists_eq_succ_of_ne_zero hk
  have hpow : powmodF a d n = a ^ d % n := by rw [powmodF_eq, if_neg (by have := hfac.odd; omega)]
  have hcast : ((a ^ d % n : Nat) : ZMod n) = (a : ZMod n) ^ d := by rw [ZMod.natCast_mod, Nat.cast_pow]
  have ha0 : (a : ZMod n) ≠ 0 := by
    rw [Ne, ZMod.natCast_eq_zero_iff]
    exact Nat.not_dvd_of_pos_of_lt ha ha'
  rw [roundF_eq, hpow]
  by_cases hx : a ^ d % n = 1 ∨ a ^ d % n = n - 1
  · rw [decide_eq_true hx, Bool.true_or]
  · rw [decide_eq_false hx, Bool.false_or, squarings, if_neg hk, Nat.succ_sub_one]
    obtain ⟨hone, hneg⟩ := not_or.1 hx
    rw [← Nat.mod_mod] at hone hneg
    refine squaresToMinusOne_of_prime q _ (mt cast_eq_one_of_mod hone) (mt cast_eq_neg_one_of_mod hneg) ?_
    rw [hcast, ← pow_mul, mul_comm, ← hfac.product]
    exact ZMod.pow_card_sub_one_eq_one ha0

/-! ### The tests on a prime (R180, R181) -/

theorem mrRounds_of_prime {W k d : Nat} (hn : 4 < n) (hfac : Factored W n k d) (acc w : Nat) :
    mrRounds n k d acc w = true := by
  induction acc generalizing w with
  | zero => rfl
  | succ acc ih =>
    have hlo := two_le_lcg w n
    have hhi := lcg_le w hn
    rw [mrRounds, roundF_of_prime (by omega) hfac (by omega) (by omega), ih, Bool.and_self]

theorem mrdRounds_of_prime {W k d : Nat} (hn : 2 < n) (hfac : Factored W n k d) (c a : Nat) (ha : 0 < a) (hc : a + c ≤ n) :
    mrdRounds n k d c a = true := by
  induction c generalizing a with
  | zero => rfl
  | succ c ih => rw [mrdRounds, roundF_of_prime hn hfac ha (by omega), ih (a + 1) (by omega) (by omega), Bool.and_self]

theorem mrF_of_prime (hn : 4 < n) (acc : Nat) {p : RngPins} (hp : p.fail = false) : mrF n acc p = .ok true := by
  obtain ⟨k, d, hfac⟩ := exists_factored (by omega) n.lt_two_pow_self
  rw [mrF, if_neg (by omega), hp, hfac.fac2, if_neg Bool.false_ne_true, mrRounds_of_prime hn hfac]

theorem mrdF_of_prime (hn : 3 < n) (lnb : Nat) : mrdF n lnb = .ok true := by
  obtain ⟨k, d, hfac⟩ := exists_factored (by omega) n.lt_two_pow_self
  have hbound : mrdBoundF n lnb ≤ n - 1 := min_le_left _ _
  rw [mrdF, if_neg (by omega), hfac.fac2, mrdRounds_of_prime (by omega) hfac _ 2 two_pos (by omega)]

/-- No prime divides another (R165). -/
theorem tdivF_of_prime {c : Nat} (hc : c < 1000) : tdivF n (c + 1) = true := by
  by_contra h
  obtain ⟨x, hx, -, hdvd, hne⟩ := (tdivF_eq_false_iff_prime hc).1 (Bool.eq_false_iff.2 h)
  exact hne ((Nat.prime_dvd_prime_iff_eq hx Fact.out).1 hdvd).symm

end

/-- Settles O49: the filters reject proper multiples only, and a prime passes every round of either test. -/
theorem primesAreAccepted : Obligations.PrimesAreAccepted := by
  intro n hn
  have : Fact n.Prime := ⟨hn⟩
  exact ⟨tdivF_of_prime (c := 99) (by decide), tdivF_of_prime (c := 999) (by decide),
    fun h4 acc p hp => mrF_of_prime h4 acc hp, fun h3 lnb => mrdF_of_prime h3 lnb⟩

/-! ### The reference bound (R8, R195) -/

/-- The logarithm estimate keeps the 64 high bits, so it never sees a number below 4. -/
theorem four_le_shiftRight_lnShift {n : Nat} (hn : 4 ≤ n) : 4 ≤ n >>> lnShift n := by
  rw [Nat.shiftRight_eq_div_pow, Nat.le_div_iff_mul_le (Nat.two_pow_pos _)]
  by_cases hlen : bitlen n ≤ 64
  · rwa [lnShift, Nat.sub_eq_zero_of_le hlen, pow_zero, mul_one]
  · have hpow : 2 ^ (bitlen n - 1) ≤ n := by
      rw [← Nat.not_lt, ← bitlen_le_iff]
      omega
    calc 4 * 2 ^ lnShift n = 2 ^ (2 + (bitlen n - 64)) := by rw [lnShift, pow_add, show 2 ^ 2 = 4 from rfl]
      _ ≤ 2 ^ (bitlen n - 1) := Nat.pow_le_pow_right two_pos (by omega)
      _ ≤ n := hpow

/-- Settles O50: the estimate is at least `ln 4`, and `2 * (ln 4)^2` is above 3. -/
theorem referenceBoundIsAtLeastThree : Obligations.ReferenceBoundIsAtLeastThree := by
  intro n v hn hv
  have hlog4 : Real.log 4 = 2 * Real.log 2 := by
    rw [show (4 : ℝ) = 2 ^ 2 by norm_num, Real.log_pow, Nat.cast_ofNat]
  have hlog2 := Real.log_two_gt_d9
  have hfour : (4 : ℝ) ≤ (n >>> lnShift n : Nat) := by exact_mod_cast four_le_shiftRight_lnShift hn
  have hestimate := Real.log_le_log (by norm_num) hfour
  have hshift : 0 ≤ (lnShift n : ℝ) * Real.log 2 := by positivity
  rw [hv]
  refine Nat.le_floor ?_
  push_cast
  nlinarith

end Sys2Proof.Machine
end
